-- ==== Sys2Proof/Word.lean ====
section
/-! DEFINITION. Words, the index types of the part's tables and the widths of its numbered fields.
The bounds are those of the outline table of 00_scope.md. -/

namespace Sys2Proof

/-- A word of the management bus, of a record and of a link frame (00_scope.md, Conventions). -/
abbrev Word := BitVec 32

/-- Agents 0 to 31. -/
abbrev AgentId := Fin 32

/-- Agent link ports 0 to 3. -/
abbrev PortId := Fin 4

/-- Contexts 0 to 255. -/
abbrev ContextId := Fin 256

/-- Windows 0 to 4095. -/
abbrev WindowId := Fin 4096

/-- Change slots 0 to 7. -/
abbrev SlotId := Fin 8

/-- Parking pool entries 0 to 63. -/
abbrev EntryId := Fin 64

/-- A set of agents, shown to software as one word in which bit n stands for agent n (R179). -/
abbrev AgentSet := BitVec 32

/-- A local page number, 0 to 2^36 - 1. -/
abbrev LocalPage := BitVec 36

/-- A global page number, 0 to 2^40 - 1. -/
abbrev GlobalPage := BitVec 40

/-- A window length in pages, 0 to 2^24, carried in 25 bits (R177). -/
abbrev PageCount := BitVec 25

/-- Window version, change serial or command tag: 16 bits, wrapping. -/
abbrev Half := BitVec 16

/-- A link frame as the lanes carry it: whole words, header first, check word last (R176). -/
abbrev Frame := List Word

/-- One bit position of a grant-part code word; the spec numbers none of them (log 9). -/
abbrev CodeBit := Nat

end Sys2Proof
end

