-- ==== Sys2Proof/Syntax.lean ====
section
/-! DEFINITION. The commands of the block: one constructor for each row of spec/opcode_table.json,
in the table's order. -/

namespace Sys2Proof

/-- A command: an event on a pin, a tick, an arrival or a departure on a link, a claim of one of the
part's blocks, or an access to a register. -/
inductive Instr where
  /-- RESET_N is driven low (R137). -/
  | resetNAssert
  /-- RESET_N is released (R137). -/
  | resetNRelease
  /-- The INIT walk finishes (R23). -/
  | initWalkEnd
  /-- A write of `value` to CONTROL (R138). -/
  | softReset (value : Word)
  /-- One tick of the timebase (R135). -/
  | timebaseTick
  /-- A stored error reaches one bit of window `w`'s code word (R162). -/
  | storedError (w : WindowId) (bit : CodeBit)
  /-- A READY frame arrives on port `p` (R112). -/
  | readyReceived (p : PortId) (frame : Frame)
  /-- A CREDIT frame arrives on port `p` (R118). -/
  | creditReceived (p : PortId) (frame : Frame)
  /-- A REINIT frame arrives on port `p` (R115). -/
  | reinitReceived (p : PortId) (frame : Frame)
  /-- Any other frame arrives on port `p` (R120). -/
  | agentMessageArrival (p : PortId) (frame : Frame)
  /-- The dispatcher of port `p` takes a HELLO (R33). -/
  | hello (p : PortId)
  /-- The dispatcher of port `p` takes a GOODBYE (R34). -/
  | goodbye (p : PortId)
  /-- The dispatcher of port `p` takes a RELEASE (R17). -/
  | release (p : PortId)
  /-- The dispatcher of port `p` takes a RECALL_ACK (R82). -/
  | recallAck (p : PortId)
  /-- The arbiter serves a port's TRANSLATE (R45, R46). -/
  | lookup
  /-- The arbiter serves the head of the replay list (R45, R66). -/
  | replay
  /-- The part's READY leaves on port `p` (R112). -/
  | readyDeparture (p : PortId)
  /-- The part's REINIT leaves on port `p` (R113). -/
  | reinitDeparture (p : PortId)
  /-- A CREDIT leaves on port `p` (R117). -/
  | creditDeparture (p : PortId)
  /-- The head of port `p`'s outbound queue leaves (R119). -/
  | outboundDeparture (p : PortId)
  /-- The refill claim of port `p` (R123). -/
  | refill (p : PortId)
  /-- The reminder of slot `k` (R87). -/
  | recallReminder (k : SlotId)
  /-- The timeout of slot `k` (R88). -/
  | recallTimeout (k : SlotId)
  /-- The scrub read (R168). -/
  | scrubRead
  /-- One visit of the purge walk (R103). -/
  | purgeVisit
  /-- The command engine takes a record of unknown kind (R142). -/
  | badCommand
  /-- The command engine takes OPEN_CONTEXT (R144). -/
  | openContext
  /-- The command engine takes CLOSE_CONTEXT (R145). -/
  | closeContext
  /-- The command engine takes JOIN (R146). -/
  | join
  /-- The command engine takes LEAVE (R147). -/
  | leave
  /-- The command engine takes ADD_WINDOW (R148). -/
  | addWindow
  /-- The command engine takes MODIFY_WINDOW (R149). -/
  | modifyWindow
  /-- The command engine takes RETIRE_WINDOW (R150). -/
  | retireWindow
  /-- The command engine takes FENCE_AGENT (R151). -/
  | fenceAgent
  /-- The command engine takes UNFENCE_AGENT (R153). -/
  | unfenceAgent
  /-- The command engine takes QUERY_WINDOW (R154). -/
  | queryWindow
  /-- The command engine takes QUERY_AGENT (R155). -/
  | queryAgent
  /-- The command engine takes QUERY_CONTEXT (R156). -/
  | queryContext
  /-- The command engine takes PORT_ENABLE (R157). -/
  | portEnable
  /-- The command engine takes PORT_DISABLE (R158). -/
  | portDisable
  /-- The command engine takes PORT_RESET (R159). -/
  | portReset
  /-- A write of `value` to CMD_WORD (R127). -/
  | cmdWordWrite (value : Word)
  /-- A write of `value` to CMD_POST (R128). -/
  | cmdPost (value : Word)
  /-- A read of CPL_WORD (R130). -/
  | cplWordRead
  /-- A write of `value` to CPL_POP (R131). -/
  | cplPop (value : Word)
  /-- A write of `value` to ATTN_CAUSE (R133). -/
  | attnCauseWrite (value : Word)
  /-- A write of `value` to ATTN_ENABLE (R134). -/
  | attnEnableWrite (value : Word)
  /-- A write of `value` to RECALL_LIMIT (R136). -/
  | recallLimitWrite (value : Word)
  /-- A write of `value` to SCRUB_INTERVAL (R136). -/
  | scrubIntervalWrite (value : Word)
  /-- A write of `value` to FAULT_CLEAR (R172). -/
  | faultClear (value : Word)
  /-- A write of `value` to the word offset `offset`, which names a read-only register or none (R126). -/
  | registerWriteIgnored (offset : BitVec 8) (value : Word)
  deriving DecidableEq, Repr

end Sys2Proof
end

