-- ==== Sys2Proof/Machine/Records.lean ====
section
/-! DEFINITION. The records the part keeps, the messages its queues hold and the records its
command engine reads and posts, as plain data, with the value each takes after reset. -/

namespace Sys2Proof.Machine

/-! ## Windows (R1) -/

/-- State of a window record (R1, R3). -/
inductive WindowState where
  | free | live | changing
  deriving DecidableEq, Repr, Inhabited

/-- Access class of a window (R1). -/
inductive AccessClass where
  | strict | posted | cached
  deriving DecidableEq, Repr, Inhabited

/-- Access kind of a request (R62). -/
inductive AccessKind where
  | read | write | atomic
  deriving DecidableEq, Repr, Inhabited

/-- A subset of READ, WRITE, ATOMIC (R1). -/
structure Rights where
  read   : Bool
  write  : Bool
  atomic : Bool
  deriving DecidableEq, Repr, Inhabited

/-- The grant part of a window: what a GRANT copies (R1). -/
structure GrantPart where
  globalBase : GlobalPage
  rights     : Rights
  cls        : AccessClass
  deriving DecidableEq, Repr, Inhabited

/-- The contents the INIT walk and every freeing claim write: global base 0, no right, STRICT. -/
def GrantPart.zero : GrantPart := ⟨0, ⟨false, false, false⟩, .strict⟩

/-- One protected code word: the contents last written whole, and the bits of the stored word that
differ from the code word written then, in rising order (R162, R163; log 9). -/
structure CodeWord where
  written : GrantPart
  flipped : List CodeBit
  deriving DecidableEq, Repr

/-- The code word the INIT walk leaves: zeroed contents and good check bits (R23). -/
def CodeWord.initial : CodeWord := ⟨GrantPart.zero, []⟩

/-- The three outcomes of a grant-part read, with the values handed to the reader (R161). -/
inductive ReadOutcome where
  | clean (g : GrantPart)
  | single (g : GrantPart)
  | double
  deriving DecidableEq, Repr, Inhabited

/-- The key part of a window record (R1). -/
structure Window where
  state     : WindowState
  context   : ContextId
  localBase : LocalPage
  length    : PageCount
  version   : Half
  holders   : AgentSet
  slot      : Option SlotId
  poisoned  : Bool
  deriving DecidableEq, Repr

/-- A window record after the INIT walk (R1, last column). -/
def Window.initial : Window := ⟨.free, 0, 0, 0, 0, 0, none, false⟩

/-! ## Contexts (R24) -/

/-- State of a context record (R24). -/
inductive ContextState where
  | free | opened | closing
  deriving DecidableEq, Repr

/-- A context record (R24). -/
structure Context where
  state       : ContextState
  members     : AgentSet
  leaving     : AgentSet
  windowCount : Nat
  closingSlot : Option SlotId
  deriving DecidableEq, Repr

/-- A context record after the INIT walk (R24, last column). -/
def Context.initial : Context := ⟨.free, 0, 0, 0, none⟩

/-! ## Agents (R31) -/

/-- State of an agent record (R31). -/
inductive AgentState where
  | absent | active | purging | fenced
  deriving DecidableEq, Repr

/-- What an agent becomes when its purge ends (R31). -/
inductive PurgeTarget where
  | active | absent | fenced
  deriving DecidableEq, Repr

/-- An agent record (R31). -/
structure Agent where
  state       : AgentState
  port        : Option PortId
  target      : Option PurgeTarget
  welcomeOwed : Bool
  fenceOwed   : Bool
  held        : Nat
  deriving DecidableEq, Repr

/-- An agent record after the INIT walk (R31, last column). -/
def Agent.initial : Agent := ⟨.absent, none, none, false, false, 0⟩

/-! ## Requests and the parking pool (R62) -/

/-- What a TRANSLATE asks for: the fields a lookup reads (R46). -/
structure Request where
  agent   : AgentId
  tag     : Half
  context : ContextId
  page    : LocalPage
  kind    : AccessKind
  deriving DecidableEq, Repr

/-- State of a pool entry (R62). -/
inductive EntryState where
  | free | parked | replay
  deriving DecidableEq, Repr

/-- A parking pool entry (R62). -/
structure PoolEntry where
  state   : EntryState
  request : Request
  port    : PortId
  window  : WindowId
  deriving DecidableEq, Repr

/-- A pool entry after reset (R62, last column). -/
def PoolEntry.initial : PoolEntry := ⟨.free, ⟨0, 0, 0, 0, .read⟩, 0, 0⟩

/-! ## Change slots (R73) -/

/-- State of a change slot (R73). -/
inductive SlotState where
  | free | active
  deriving DecidableEq, Repr

/-- Kind and subject of a change together: the kind fixes the subject's form (R75). -/
inductive ChangeSubject where
  | modify (w : WindowId)
  | retire (w : WindowId)
  | close (c : ContextId)
  | leave (c : ContextId) (a : AgentId)
  deriving DecidableEq, Repr

/-- The new values a MODIFY change holds (R73). -/
structure NewValues where
  length : PageCount
  grant  : GrantPart
  deriving DecidableEq, Repr

/-- What the last tick made due for a slot and no claim has taken yet (R86; log 6). -/
inductive DueEvent where
  | nothing | reminder | timeout
  deriving DecidableEq, Repr

/-- A change slot (R73); `due` is the model's own (log 6). -/
structure Slot where
  state        : SlotState
  serial       : Half
  subject      : ChangeSubject
  newValues    : NewValues
  tag          : Half
  pending      : AgentSet
  unsent       : AgentSet
  elapsed      : Nat
  reminderSent : Bool
  fenced       : AgentSet
  due          : DueEvent
  deriving DecidableEq, Repr

/-- A change slot after reset (R73, last column). -/
def Slot.initial : Slot :=
  ⟨.free, 0, .modify 0, ⟨0, GrantPart.zero⟩, 0, 0, 0, 0, false, 0, .nothing⟩

/-! ## Messages (R177) -/

/-- An agent message in an inbound queue (R110). -/
inductive InMsg where
  | hello (a : AgentId)
  | goodbye (a : AgentId)
  | translate (r : Request)
  | release (a : AgentId) (w : WindowId) (version : Half)
  | recallAck (a : AgentId) (serial : Half)
  deriving DecidableEq, Repr

/-- Outcome of a WELCOME (R33). -/
inductive WelcomeOutcome where
  | accepted | duplicate | fenced
  deriving DecidableEq, Repr

/-- Reason of a DENY (R55). -/
inductive DenyReason where
  | notJoined | fenced | retry | noContext | closing | notMember | noWindow | poisoned | rights
  deriving DecidableEq, Repr

/-- What a RECALL asks an agent to give up (R79): a window at a version, or all it holds in a context. -/
inductive RecallScope where
  | window (w : WindowId) (version : Half)
  | context (c : ContextId)
  deriving DecidableEq, Repr

/-- An agent message in an outbound queue (R122). -/
inductive OutMsg where
  | welcome (a : AgentId) (outcome : WelcomeOutcome)
  | grant (a : AgentId) (tag : Half) (w : WindowId) (version : Half) (localBase : LocalPage)
      (length : PageCount) (g : GrantPart)
  | deny (a : AgentId) (tag : Half) (reason : DenyReason)
  | recall (a : AgentId) (serial : Half) (scope : RecallScope) (reminder : Bool)
  | fence (a : AgentId)
  | unfence (a : AgentId)
  deriving DecidableEq, Repr

/-- Kind of a protocol violation (R120). -/
inductive Violation where
  | check | unknownKind | badLength | badField | outOfState | overrun
  deriving DecidableEq, Repr

/-- What the receiver makes of a frame by checks 1 to 4 (R120): a violation or a message. -/
inductive Received where
  | bad (v : Violation)
  | ready (count : Nat)
  | credit (count : Nat)
  | reinit
  | agent (m : InMsg)
  deriving DecidableEq, Repr

/-! ## Ports (R110) -/

/-- State of a port (R110). -/
inductive PortState where
  | disabled | training | up | reinit
  deriving DecidableEq, Repr

/-- The state a port takes when it leaves REINIT (R110). -/
inductive Destination where
  | training | disabled
  deriving DecidableEq, Repr

/-- A port record (R110). -/
structure Port where
  state          : PortState
  destination    : Destination
  readySent      : Bool
  partnerReady   : Bool
  inbound        : List InMsg
  outbound       : List OutMsg
  partnerCredits : Nat
  returnedOwed   : Nat
  deriving DecidableEq, Repr

/-- A port record after device reset (R110, last column). -/
def Port.initial : Port := ⟨.disabled, .training, false, false, [], [], 0, 0⟩

/-! ## Command and completion records (R178, R179) -/

/-- A command record: six words in the order written (R178). -/
structure CmdRecord where
  w1 : Word
  w2 : Word
  w3 : Word
  w4 : Word
  w5 : Word
  w6 : Word
  deriving DecidableEq, Repr

/-- The fifteen kinds of command (R178). -/
inductive CommandKind where
  | openContext | closeContext | join | leave | addWindow | modifyWindow | retireWindow
  | fenceAgent | unfenceAgent | queryWindow | queryAgent | queryContext
  | portEnable | portDisable | portReset
  deriving DecidableEq, Repr

/-- Status of a completion record (R179). -/
inductive Status where
  | ok | done | doneFenced | badCommand | noContext | contextBusy | contextClosing | alreadyMember
  | notMember | agentBusy | overlap | tableFull | noWindow | windowBusy | versionMismatch
  | poisoned | agentState | portBusy
  deriving DecidableEq, Repr

/-- The result fields of a completion record, by kind (R143, R179); `refused` has none. -/
inductive Result where
  | refused
  | context (c : ContextId)
  | close (c : ContextId) (serial : Half) (fenced : AgentSet)
  | member (c : ContextId) (a : AgentId)
  | leave (c : ContextId) (a : AgentId) (serial : Half) (fenced : AgentSet)
  | added (w : WindowId) (version : Half)
  | modified (w : WindowId) (serial : Half) (fenced : AgentSet) (version : Half) (poisonCleared : Bool)
  | retired (w : WindowId) (serial : Half) (fenced : AgentSet) (version : Half)
  | fenced (a : AgentId) (port : Option PortId)
  | unfenced (a : AgentId) (port : Option PortId) (placed : Bool)
  | window (w : WindowId) (key : Window) (g : GrantPart)
  | agent (a : AgentId) (record : Agent)
  | contextRecord (c : ContextId) (record : Context)
  | port (p : PortId) (state : PortState)
  deriving DecidableEq, Repr

/-- A completion record (R143); its eight words are laid out when it is read (R179; log 22). -/
structure Completion where
  kind   : BitVec 8
  status : Status
  tag    : Half
  result : Result
  deriving DecidableEq, Repr

/-- What validation makes of a MODIFY_WINDOW, RETIRE_WINDOW, CLOSE_CONTEXT or LEAVE (R142): refused,
applied at once, or in need of a change slot (R141). -/
inductive Judgement where
  | refused (status : Status)
  | immediate (subject : ChangeSubject) (values : NewValues)
  | needsSlot (subject : ChangeSubject) (values : NewValues)
  deriving DecidableEq, Repr

/-- What checks 1 to 8 of a lookup make of a request (R47): a DENY, a CHANGING window, or a LIVE
window whose grant part is to be read. -/
inductive LookupCheck where
  | deny (reason : DenyReason)
  | changing (w : WindowId)
  | live (w : WindowId)
  deriving DecidableEq, Repr

/-- An entry of the fence wait list (R139). -/
structure FenceWait where
  tag   : Half
  agent : AgentId
  deriving DecidableEq, Repr

/-! ## Fault banks (R170) -/

/-- Severity of a STORAGE fault (R170). -/
inductive Severity where
  | corrected | uncorrected
  deriving DecidableEq, Repr

/-- The reader whose read found a stored error (R164). -/
inductive Detector where
  | lookup | query | scrub
  deriving DecidableEq, Repr

/-- The STORAGE fault bank (R170). -/
structure StorageBank where
  valid    : Bool
  overflow : Bool
  severity : Severity
  window   : WindowId
  detector : Detector
  freeNote : Bool
  deriving DecidableEq, Repr

/-- The RECALL fault bank (R170). -/
structure RecallBank where
  valid    : Bool
  overflow : Bool
  serial   : Half
  subject  : ChangeSubject
  fenced   : AgentSet
  deriving DecidableEq, Repr

/-- The LINK fault bank (R170). -/
structure LinkBank where
  valid    : Bool
  overflow : Bool
  port     : PortId
  kind     : Violation
  deriving DecidableEq, Repr

/-- The STORAGE bank after device reset or a clear (R170, last column). -/
def StorageBank.initial : StorageBank := ⟨false, false, .corrected, 0, .lookup, false⟩

/-- The RECALL bank after device reset or a clear (R170, last column). -/
def RecallBank.initial : RecallBank := ⟨false, false, 0, .modify 0, 0⟩

/-- The LINK bank after device reset or a clear (R170, last column). -/
def LinkBank.initial : LinkBank := ⟨false, false, 0, .check⟩

end Sys2Proof.Machine
end

