-- ==== Sys2Proof/Config.lean ====
section
/-! DEFINITION. What the part fixes once (capacities and times of the outline table of 00_scope.md)
and the one value the spec leaves open. -/

namespace Sys2Proof.Config

/-- Records the command queue holds (R129). -/
def commandPlaces : Nat := 16

/-- Completion records and reservations together (R140). -/
def completionPlaces : Nat := 16

/-- Messages an inbound queue holds, and credits advertised to each partner (R110, R112). -/
def inboundPlaces : Nat := 16

/-- Messages an outbound queue holds, and the most credits a partner lends (R110, R118). -/
def outboundPlaces : Nat := 32

/-- One unit of RECALL_LIMIT, in ticks (R136). -/
def recallUnit : Nat := 16

/-- One unit of SCRUB_INTERVAL, in ticks (R136). -/
def scrubUnit : Nat := 64

/-- The bound on the INIT walk, in ticks (R23). -/
def walkBound : Nat := 200

/-- The ID register: vendor 5A7h, part 3204h, revision 1h (R180). -/
def idWord : Word := 0x5A732041

/-- FREE VALUE (R162): how a code word reads whose stored bits differ from the written ones in three
or more places: any of the three outcomes, with any values on Clean and Single (log 10). -/
opaque manyBitRead : Machine.GrantPart → List CodeBit → Machine.ReadOutcome

end Sys2Proof.Config
end

