-- ==== Sys2Proof/Machine/Operands.lean ====
section
/-! DEFINITION. Every layout of chapter 11: bit fields, the CRC-16, link frames in both directions,
the operands of command records and the eight words of completion records. -/

namespace Sys2Proof.Machine

/-! ## Fields of words -/

/-- The `n` bits of a word from bit `lo` up. -/
def bits (w : Word) (lo n : Nat) : BitVec n := w.extractLsb' lo n

/-- The word whose fields are listed, each as its lowest bit and its value; every other bit is 0. -/
def wordOf (fields : List (Nat × Nat)) : Word :=
  fields.foldl (fun w f => w ||| (BitVec.ofNat 32 f.2 <<< f.1)) 0

/-- A number as an index below `n`, when it is one. -/
def finOf (n x : Nat) : Option (Fin n) := if h : x < n then some ⟨x, h⟩ else none

/-- 1 for a set flag. -/
def flagCode (b : Bool) : Nat := if b then 1 else 0

/-- An optional number as its field at `lo` and its present bit at `present`; both 0 when absent (R179). -/
def optionalField (x : Option Nat) (lo present : Nat) : List (Nat × Nat) :=
  match x with
  | none => []
  | some v => [(lo, v), (present, 1)]

/-! ## Codes of enumerated fields (R177, R179, R180) -/

def rightsCode (r : Rights) : Nat := flagCode r.read + 2 * flagCode r.write + 4 * flagCode r.atomic

def rightsOf (b : BitVec 3) : Rights := ⟨b.getLsbD 0, b.getLsbD 1, b.getLsbD 2⟩

def classCode : AccessClass → Nat
  | .strict => 0
  | .posted => 1
  | .cached => 2

/-- The class of a code; 3 names none (R178). -/
def classOf (b : BitVec 2) : Option AccessClass :=
  match b.toNat with
  | 0 => some .strict
  | 1 => some .posted
  | 2 => some .cached
  | _ => none

/-- The access kind of a code; 3 fails BAD_FIELD (R177). -/
def accessKindOf (b : BitVec 2) : Option AccessKind :=
  match b.toNat with
  | 0 => some .read
  | 1 => some .write
  | 2 => some .atomic
  | _ => none

def welcomeCode : WelcomeOutcome → Nat
  | .accepted => 0
  | .duplicate => 1
  | .fenced => 2

def denyCode : DenyReason → Nat
  | .notJoined => 0x01
  | .fenced => 0x02
  | .retry => 0x03
  | .noContext => 0x04
  | .closing => 0x05
  | .notMember => 0x06
  | .noWindow => 0x07
  | .poisoned => 0x08
  | .rights => 0x09

def windowStateCode : WindowState → Nat
  | .free => 0
  | .live => 1
  | .changing => 2

def contextStateCode : ContextState → Nat
  | .free => 0
  | .opened => 1
  | .closing => 2

def agentStateCode : AgentState → Nat
  | .absent => 0
  | .active => 1
  | .purging => 2
  | .fenced => 3

def purgeTargetCode : PurgeTarget → Nat
  | .absent => 0
  | .active => 1
  | .fenced => 2

def portStateCode : PortState → Nat
  | .disabled => 0
  | .training => 1
  | .up => 2
  | .reinit => 3

def statusCode : Status → Nat
  | .ok => 0x00
  | .done => 0x01
  | .doneFenced => 0x02
  | .badCommand => 0x10
  | .noContext => 0x11
  | .contextBusy => 0x12
  | .contextClosing => 0x13
  | .alreadyMember => 0x14
  | .notMember => 0x15
  | .agentBusy => 0x16
  | .overlap => 0x17
  | .tableFull => 0x18
  | .noWindow => 0x19
  | .windowBusy => 0x1A
  | .versionMismatch => 0x1B
  | .poisoned => 0x1C
  | .agentState => 0x1D
  | .portBusy => 0x1E

def detectorCode : Detector → Nat
  | .lookup => 0
  | .query => 1
  | .scrub => 2

def severityCode : Severity → Nat
  | .corrected => 0
  | .uncorrected => 1

def violationCode : Violation → Nat
  | .check => 0
  | .unknownKind => 1
  | .badLength => 2
  | .badField => 3
  | .outOfState => 4
  | .overrun => 5

def changeKindCode : ChangeSubject → Nat
  | .modify _ => 0
  | .retire _ => 1
  | .close _ => 2
  | .leave _ _ => 3

/-! ## The CRC-16 (R176) -/

/-- One message bit: the register shifts toward bit 15, and 1021h is combined when the bit shifted
out differs from the message bit. -/
def crcBit (r : BitVec 16) (b : Bool) : BitVec 16 :=
  let shifted := r <<< 1
  if r.getLsbD 15 != b then shifted ^^^ 0x1021 else shifted

/-- One word, from bit 31 down to bit 0. -/
def crcWord (r : BitVec 16) (w : Word) : BitVec 16 :=
  (List.range 32).foldl (fun r i => crcBit r (w.getLsbD (31 - i))) r

/-- The CRC-16 of the header and body words, from FFFFh. -/
def crc16 (ws : List Word) : BitVec 16 := ws.foldl crcWord 0xFFFF

/-! ## Received frames (R120, R176, R177) -/

/-- The header of a frame; 0 for a frame with no word. -/
def headerWord (f : Frame) : Word := f.headD 0

/-- Body word `i` of a frame, counted from 1 (R177). -/
def bodyWord (f : Frame) (i : Nat) : Word := f.getD i 0

/-- Check 1: the check word carries the CRC-16 of the words before it. A frame of fewer than two
words has no check word and fails (log 11). -/
def checkHolds (f : Frame) : Bool :=
  2 ≤ f.length && crc16 f.dropLast == bits (f.getLastD 0) 0 16

/-- The length of a kind that the part receives; none for a code that is unknown or that only the
part sends (check 2). -/
def receivedLength (kind : Nat) : Option Nat :=
  match kind with
  | 0x01 => some 3
  | 0x02 => some 3
  | 0x03 => some 2
  | 0x10 => some 2
  | 0x11 => some 2
  | 0x12 => some 4
  | 0x13 => some 3
  | 0x14 => some 3
  | _ => none

/-- A READY or CREDIT count, 1 to 32 (R112, R118). -/
def creditCount (f : Frame) : Option Nat :=
  let n := (bits (bodyWord f 1) 0 8).toNat
  if 1 ≤ n ∧ n ≤ Config.outboundPlaces then some n else none

/-- The request a TRANSLATE frame of agent `a` carries; none when the access kind is out of range. -/
def translateRequest (a : AgentId) (f : Frame) : Option Request :=
  let w1 := bodyWord f 1
  (accessKindOf (bits w1 4 2)).map fun kind =>
    ⟨a, bits w1 16 16, (bits w1 8 8).toFin, bits w1 0 4 ++ bodyWord f 2, kind⟩

/-- The agent message of a frame of a given agent kind, or none when a field is out of range. -/
def agentMessage (kind : Nat) (a : AgentId) (f : Frame) : Option InMsg :=
  let w1 := bodyWord f 1
  match kind with
  | 0x10 => some (.hello a)
  | 0x11 => some (.goodbye a)
  | 0x12 => (translateRequest a f).map .translate
  | 0x13 => some (.release a (bits w1 16 12).toFin (bits w1 0 16))
  | 0x14 => some (.recallAck a (bits w1 0 16))
  | _ => none

/-- Check 4 and the message of a frame whose kind and length are good. -/
def decodeBody (kind : Nat) (f : Frame) : Received :=
  match kind with
  | 0x01 => match creditCount f with
    | some n => .ready n
    | none => .bad .badField
  | 0x02 => match creditCount f with
    | some n => .credit n
    | none => .bad .badField
  | 0x03 => .reinit
  | _ =>
    match finOf 32 (bits (headerWord f) 16 8).toNat with
    | none => .bad .badField
    | some a => match agentMessage kind a f with
      | some m => .agent m
      | none => .bad .badField

/-- Checks 1 to 4 of R120, in order, less the part of check 4 that reads the partner credits. -/
def decodeFrame (f : Frame) : Received :=
  let kind := (bits (headerWord f) 24 8).toNat
  if checkHolds f then
    match receivedLength kind with
    | none => .bad .unknownKind
    | some n =>
      if (bits (headerWord f) 8 8).toNat = n ∧ f.length = n then decodeBody kind f
      else .bad .badLength
  else .bad .check

/-! ## Sent frames (R176, R177) -/

/-- The frame of a kind, agent number and body, with its length and CRC-16. -/
def buildFrame (kind agent : Nat) (body : List Word) : Frame :=
  let ws := wordOf [(24, kind), (16, agent), (8, body.length + 2)] :: body
  ws ++ [wordOf [(0, (crc16 ws).toNat)]]

/-- The part's READY, carrying its 16 inbound places (R112). -/
def readyFrame : Frame := buildFrame 0x01 0 [wordOf [(0, Config.inboundPlaces)]]

/-- A CREDIT of the part (R117). -/
def creditFrame (count : Nat) : Frame := buildFrame 0x02 0 [wordOf [(0, count)]]

/-- The part's REINIT (R113). -/
def reinitFrame : Frame := buildFrame 0x03 0 []

/-- Words 1 and 2 of a RECALL (R177). -/
def recallBody (serial : Half) (scope : RecallScope) (reminder : Bool) : List Word :=
  match scope with
  | .window w version =>
    [wordOf [(16, serial.toNat), (0, version.toNat)],
     wordOf [(30, flagCode reminder), (0, w.val)]]
  | .context c =>
    [wordOf [(16, serial.toNat)], wordOf [(31, 1), (30, flagCode reminder), (0, c.val)]]

/-- Words 1 to 6 of a GRANT (R177). -/
def grantBody (tag : Half) (w : WindowId) (version : Half) (localBase : LocalPage)
    (length : PageCount) (g : GrantPart) : List Word :=
  [wordOf [(16, tag.toNat), (0, version.toNat)],
   wordOf [(24, localBase.toNat / 2 ^ 32), (20, classCode g.cls), (16, rightsCode g.rights), (0, w.val)],
   localBase.truncate 32,
   wordOf [(0, length.toNat)],
   g.globalBase.truncate 32,
   wordOf [(0, g.globalBase.toNat / 2 ^ 32)]]

/-- The frame of a message of the outbound queue (R177). -/
def outFrame : OutMsg → Frame
  | .welcome a outcome => buildFrame 0x20 a [wordOf [(0, welcomeCode outcome)]]
  | .grant a tag w version localBase length g =>
    buildFrame 0x21 a (grantBody tag w version localBase length g)
  | .deny a tag reason => buildFrame 0x22 a [wordOf [(16, tag.toNat), (0, denyCode reason)]]
  | .recall a serial scope reminder => buildFrame 0x23 a (recallBody serial scope reminder)
  | .fence a => buildFrame 0x24 a []
  | .unfence a => buildFrame 0x25 a []

/-! ## Command records (R178) -/

/-- The code of a command kind. -/
def commandCode : CommandKind → BitVec 8
  | .openContext => 0x01
  | .closeContext => 0x02
  | .join => 0x03
  | .leave => 0x04
  | .addWindow => 0x10
  | .modifyWindow => 0x11
  | .retireWindow => 0x12
  | .fenceAgent => 0x20
  | .unfenceAgent => 0x21
  | .queryWindow => 0x30
  | .queryAgent => 0x31
  | .queryContext => 0x32
  | .portEnable => 0x40
  | .portDisable => 0x41
  | .portReset => 0x42

/-- Every command kind. -/
def commandKinds : List CommandKind :=
  [.openContext, .closeContext, .join, .leave, .addWindow, .modifyWindow, .retireWindow, .fenceAgent,
   .unfenceAgent, .queryWindow, .queryAgent, .queryContext, .portEnable, .portDisable, .portReset]

/-- The kind code as posted. -/
def recordCode (r : CmdRecord) : BitVec 8 := bits r.w1 24 8

/-- The command kind of a record, if its code is one of the fifteen. -/
def recordKind (r : CmdRecord) : Option CommandKind :=
  commandKinds.find? fun k => commandCode k == recordCode r

/-- The tag of a record. -/
def recordTag (r : CmdRecord) : Half := bits r.w1 0 16

/-- The operand in bits 15:0 of word 2, when it is below `n`. -/
def operand2 (n : Nat) (r : CmdRecord) : Option (Fin n) := finOf n (bits r.w2 0 16).toNat

/-- The operand in bits 15:0 of word 3, when it is below `n`. -/
def operand3 (n : Nat) (r : CmdRecord) : Option (Fin n) := finOf n (bits r.w3 0 16).toNat

/-- The context and agent of a JOIN or LEAVE. -/
def memberOperands (r : CmdRecord) : Option (ContextId × AgentId) :=
  match operand2 256 r, operand3 32 r with
  | some c, some a => some (c, a)
  | _, _ => none

/-- Local base of an ADD_WINDOW. -/
def localBaseOperand (r : CmdRecord) : LocalPage := bits r.w4 28 4 ++ r.w3

/-- Expected version of a MODIFY_WINDOW. -/
def versionOperand (r : CmdRecord) : Half := bits r.w3 0 16

/-- Length, global base, rights and class of an ADD_WINDOW or MODIFY_WINDOW, when each is in range
(R142, R178). -/
def valueOperands (r : CmdRecord) : Option NewValues :=
  let length := bits r.w4 0 25
  if 1 ≤ length.toNat ∧ length.toNat ≤ 2 ^ 24 ∧ bits r.w2 16 3 ≠ 0 then
    (classOf (bits r.w2 20 2)).map fun cls =>
      ⟨length, ⟨bits r.w6 0 8 ++ r.w5, rightsOf (bits r.w2 16 3), cls⟩⟩
  else none

/-- The bounds of R2: both ranges end inside their page spaces. -/
abbrev InBounds (localBase : LocalPage) (v : NewValues) : Prop :=
  localBase.toNat + v.length.toNat ≤ 2 ^ 36 ∧ v.grant.globalBase.toNat + v.length.toNat ≤ 2 ^ 40

/-! ## Completion records (R179) -/

/-- Words 2 to 8 of a completion record, those at the end that are 0 left out. -/
def resultWords : Result → List Word
  | .refused => []
  | .context c => [wordOf [(0, c.val)]]
  | .close c serial fenced => [wordOf [(0, c.val)], wordOf [(0, serial.toNat)], fenced]
  | .member c a => [wordOf [(0, c.val), (16, a.val)]]
  | .leave c a serial fenced =>
    [wordOf [(0, c.val), (16, a.val)], wordOf [(0, serial.toNat)], fenced]
  | .added w version => [wordOf [(0, w.val)], 0, 0, wordOf [(0, version.toNat)]]
  | .modified w serial fenced version poisonCleared =>
    [wordOf [(0, w.val)], wordOf [(0, serial.toNat)], fenced,
     wordOf [(0, version.toNat), (31, flagCode poisonCleared)]]
  | .retired w serial fenced version =>
    [wordOf [(0, w.val)], wordOf [(0, serial.toNat)], fenced, wordOf [(0, version.toNat)]]
  | .fenced a port =>
    [wordOf [(16, a.val)], 0, 0, 0, wordOf (optionalField (port.map Fin.val) 0 2)]
  | .unfenced a port placed =>
    [wordOf [(16, a.val)], 0, 0, 0,
     wordOf (optionalField (port.map Fin.val) 0 2 ++ [(3, flagCode placed)])]
  | .window w key g =>
    [wordOf ([(0, w.val), (16, windowStateCode key.state), (31, flagCode key.poisoned)]
      ++ optionalField (key.slot.map Fin.val) 24 27),
     wordOf [(0, key.context.val), (8, rightsCode g.rights), (12, classCode g.cls),
       (16, key.localBase.toNat / 2 ^ 32), (24, g.globalBase.toNat / 2 ^ 32)],
     key.localBase.truncate 32,
     wordOf [(0, key.length.toNat)],
     wordOf [(0, key.version.toNat)],
     key.holders,
     g.globalBase.truncate 32]
  | .agent a r =>
    [wordOf ([(16, a.val), (0, agentStateCode r.state), (8, flagCode r.welcomeOwed),
       (9, flagCode r.fenceOwed)] ++ optionalField (r.target.map purgeTargetCode) 4 6),
     wordOf [(0, r.held)], 0, 0, wordOf (optionalField (r.port.map Fin.val) 0 2)]
  | .contextRecord c r =>
    [wordOf ([(0, c.val), (16, contextStateCode r.state)]
      ++ optionalField (r.closingSlot.map Fin.val) 24 27),
     wordOf [(0, r.windowCount)], r.members, r.leaving]
  | .port p state => [wordOf [(0, p.val), (16, portStateCode state)]]

/-- Word `i` of a completion record, counted from 0 (word 1 of the manual is word 0 here). -/
def completionWord (c : Completion) (i : Nat) : Word :=
  (wordOf [(24, c.kind.toNat), (16, statusCode c.status), (0, c.tag.toNat)] :: resultWords c.result).getD
    i 0

end Sys2Proof.Machine
end

