-- ==== Sys2Proof/Machine/Table.lean ====
section
/-! DEFINITION. Tables of numbered records, held as a list of (index, record) pairs in one canonical
form: indices strictly rising and no record equal to the value an unlisted index reads as (log 19). -/

namespace Sys2Proof.Machine

/-- A table of `n` records: the ones that differ from their reset value. -/
abbrev Table (n : Nat) (α : Type) := List (Fin n × α)

/-- The record at index `i`; an unlisted index reads as `d`. -/
def tableGet {n : Nat} {α : Type} (d : α) (t : Table n α) (i : Fin n) : α :=
  match t with
  | [] => d
  | (j, v) :: rest => if j = i then v else tableGet d rest i

/-- Insert or replace the record at `i`, keeping the indices in rising order. -/
def tableInsert {n : Nat} {α : Type} (t : Table n α) (i : Fin n) (v : α) : Table n α :=
  match t with
  | [] => [(i, v)]
  | (j, w) :: rest =>
    if i < j then (i, v) :: (j, w) :: rest
    else if i = j then (i, v) :: rest
    else (j, w) :: tableInsert rest i v

/-- Drop the record at `i`. -/
def tableRemove {n : Nat} {α : Type} (t : Table n α) (i : Fin n) : Table n α :=
  match t with
  | [] => []
  | (j, w) :: rest => if j = i then tableRemove rest i else (j, w) :: tableRemove rest i

/-- Write the record at `i`; writing the value an unlisted index reads as removes the entry. -/
def tableSet {n : Nat} {α : Type} [DecidableEq α] (d : α) (t : Table n α) (i : Fin n) (v : α) :
    Table n α :=
  if v = d then tableRemove t i else tableInsert t i v

/-- The canonical form. -/
abbrev TableWf {n : Nat} {α : Type} (d : α) (t : Table n α) : Prop :=
  t.Pairwise (fun x y => x.1 < y.1) ∧ ∀ x ∈ t, x.2 ≠ d

end Sys2Proof.Machine
end

