-- ==== Sys2Proof/Machine/State.lean ====
section
/-! DEFINITION. The state of the part, the reasons a step can stop, and the state right after device
reset. Every field is plain data. -/

namespace Sys2Proof.Machine

/-- Reasons the part stops with a fault: none. Nothing in the spec stops the part; every fault it
finds is recorded in a bank and the part goes on (R175; log 26). -/
inductive Fault where
  deriving DecidableEq, Repr

/-- Reasons the model gives a command no meaning. -/
inductive Refusal where
  /-- Raised by `exec` alone, for a row that has no meaning yet; no arm answers it now. Safe: the
  model stops where the part goes on. -/
  | notModelled (mnemonic : String)
  deriving DecidableEq, Repr

/-- Everything the spec gives the part, and the queue of the commands that are waiting. Fields
marked MODEL'S OWN are not the spec's. -/
structure State where
  /-- MODEL'S OWN: commands waiting, first in, first out (log 1). -/
  pending        : List Instr
  /-- RESET_N is held low (R137). -/
  resetHeld      : Bool
  /-- STATUS.INIT: the INIT walk is in progress (R132). -/
  init           : Bool
  /-- MODEL'S OWN: ticks counted since the walk began (R23; log 5). -/
  walkTicks      : Nat
  /-- Key parts of the window records (R1). -/
  windows        : Table 4096 Window
  /-- The protected grant-part memory (R1, R161). -/
  grants         : Table 4096 CodeWord
  /-- The ordered window list of each context (R8). -/
  windowLists    : Table 256 (List WindowId)
  /-- Context records (R24). -/
  contexts       : Table 256 Context
  /-- Agent records (R31). -/
  agents         : Table 32 Agent
  /-- The arbiter's last port served (R44). -/
  lastPort       : PortId
  /-- Parking pool entries (R62). -/
  pool           : Table 64 PoolEntry
  /-- The park order of each window, oldest first (R63). -/
  parkOrders     : Table 4096 (List EntryId)
  /-- The replay list, oldest first (R63). -/
  replayList     : List EntryId
  /-- Change slots (R73). -/
  slots          : Table 8 Slot
  /-- The change serial counter (R74). -/
  serial         : Half
  /-- Agents whose purges are running (R99). -/
  purgeSet       : AgentSet
  /-- The record the purge walk visits next (R99). -/
  walkPosition   : WindowId
  /-- Port records (R110). -/
  ports          : Table 4 Port
  /-- MODEL'S OWN: the frame each port's transmitter sent last (R119; log 17). -/
  lanes          : Table 4 Frame
  /-- The command queue, oldest first (R129). -/
  cmdQueue       : List CmdRecord
  /-- The completion queue, oldest first (R139). -/
  completions    : List Completion
  /-- Commands taken and not yet completed, STATUS.RESERVED (R139). -/
  reservations   : Nat
  /-- STATUS.SLOT_WAIT (R141). -/
  slotWait       : Bool
  /-- The fence wait list, in the order taken (R139). -/
  fenceWait      : List FenceWait
  /-- The staging record: the words written since the last post (R127). -/
  staging        : List Word
  /-- Words of the head completion record already returned (R130). -/
  readPosition   : Nat
  /-- MODEL'S OWN: the word the last read of CPL_WORD returned (R130; log 17). -/
  readData       : Word
  /-- The sticky cause CMD_OVERRUN (R133). -/
  cmdOverrun     : Bool
  /-- The sticky cause PORT_CHANGE (R133). -/
  portChange     : Bool
  /-- ATTN_ENABLE (R134). -/
  attnEnable     : BitVec 4
  /-- RECALL_LIMIT (R136). -/
  recallLimit    : BitVec 12
  /-- SCRUB_INTERVAL (R136). -/
  scrubInterval  : BitVec 8
  /-- The record the scrubber reads next (R166). -/
  scrubPosition  : WindowId
  /-- Microseconds since the last scrub read (R166). -/
  scrubTimer     : Nat
  /-- MODEL'S OWN: the scrubber has taken its event of the next tick already, in a SCRUB_READ
  (R135, R167; log 7). -/
  scrubAhead     : Bool
  /-- The STORAGE fault bank (R170). -/
  storageBank    : StorageBank
  /-- The RECALL fault bank (R170). -/
  recallBank     : RecallBank
  /-- The LINK fault bank (R170). -/
  linkBank       : LinkBank
  deriving DecidableEq, Repr

/-- The part right after RESET_N is released (R137): every table at its initial values, every port
DISABLED, RECALL_LIMIT 250, SCRUB_INTERVAL 16, the INIT walk in progress. -/
def State.reset : State where
  pending        := []
  resetHeld      := false
  init           := true
  walkTicks      := 0
  windows        := []
  grants         := []
  windowLists    := []
  contexts       := []
  agents         := []
  lastPort       := 3
  pool           := []
  parkOrders     := []
  replayList     := []
  slots          := []
  serial         := 0
  purgeSet       := 0
  walkPosition   := 0
  ports          := []
  lanes          := []
  cmdQueue       := []
  completions    := []
  reservations   := 0
  slotWait       := false
  fenceWait      := []
  staging        := []
  readPosition   := 0
  readData       := 0
  cmdOverrun     := false
  portChange     := false
  attnEnable     := 0
  recallLimit    := 250
  scrubInterval  := 16
  scrubPosition  := 0
  scrubTimer     := 0
  scrubAhead     := false
  storageBank    := StorageBank.initial
  recallBank     := RecallBank.initial
  linkBank       := LinkBank.initial

end Sys2Proof.Machine
end

