-- ==== Sys2Proof/Machine/Ops.lean ====
section
/-! DEFINITION. The named operations over the part's tables: agent sets, one accessor and one update
for each table, placement in an outbound queue, holder sets with held counts, the parking pool's
lists, change slots and the completion queue. -/

namespace Sys2Proof.Machine

/-! ## Sets of agents -/

/-- Agent `a` is a member of the set. -/
def hasAgent (x : AgentSet) (a : AgentId) : Bool := x.getLsbD a.val

/-- The set of one agent. -/
def oneAgent (a : AgentId) : AgentSet := BitVec.twoPow 32 a.val

/-- The set with `a` joined. -/
def addAgent (x : AgentSet) (a : AgentId) : AgentSet := x ||| oneAgent a

/-- The set with `a` removed. -/
def dropAgent (x : AgentSet) (a : AgentId) : AgentSet := x &&& ~~~(oneAgent a)

/-- Every agent, in ascending number. -/
def allAgents : List AgentId := List.finRange 32

/-- The members of a set, in ascending number. -/
def agentsOf (x : AgentSet) : List AgentId := allAgents.filter fun a => hasAgent x a

/-- Every change slot, in ascending number. -/
def allSlots : List SlotId := List.finRange 8

/-- Every port, in ascending number. -/
def allPorts : List PortId := List.finRange 4

/-- Every pool entry, in ascending number. -/
def allEntries : List EntryId := List.finRange 64

/-! ## The tables of State -/

def State.window (s : State) (w : WindowId) : Window := tableGet Window.initial s.windows w

def State.setWindow (s : State) (w : WindowId) (r : Window) : State :=
  { s with windows := tableSet Window.initial s.windows w r }

def State.word (s : State) (w : WindowId) : CodeWord := tableGet CodeWord.initial s.grants w

def State.setWord (s : State) (w : WindowId) (x : CodeWord) : State :=
  { s with grants := tableSet CodeWord.initial s.grants w x }

def State.windowList (s : State) (c : ContextId) : List WindowId := tableGet [] s.windowLists c

def State.setWindowList (s : State) (c : ContextId) (l : List WindowId) : State :=
  { s with windowLists := tableSet [] s.windowLists c l }

def State.context (s : State) (c : ContextId) : Context := tableGet Context.initial s.contexts c

def State.setContext (s : State) (c : ContextId) (r : Context) : State :=
  { s with contexts := tableSet Context.initial s.contexts c r }

def State.agent (s : State) (a : AgentId) : Agent := tableGet Agent.initial s.agents a

def State.setAgent (s : State) (a : AgentId) (r : Agent) : State :=
  { s with agents := tableSet Agent.initial s.agents a r }

def State.entry (s : State) (e : EntryId) : PoolEntry := tableGet PoolEntry.initial s.pool e

def State.setEntry (s : State) (e : EntryId) (r : PoolEntry) : State :=
  { s with pool := tableSet PoolEntry.initial s.pool e r }

def State.parkOrder (s : State) (w : WindowId) : List EntryId := tableGet [] s.parkOrders w

def State.setParkOrder (s : State) (w : WindowId) (l : List EntryId) : State :=
  { s with parkOrders := tableSet [] s.parkOrders w l }

def State.slot (s : State) (k : SlotId) : Slot := tableGet Slot.initial s.slots k

def State.setSlot (s : State) (k : SlotId) (r : Slot) : State :=
  { s with slots := tableSet Slot.initial s.slots k r }

def State.port (s : State) (p : PortId) : Port := tableGet Port.initial s.ports p

def State.setPort (s : State) (p : PortId) (r : Port) : State :=
  { s with ports := tableSet Port.initial s.ports p r }

def State.lane (s : State) (p : PortId) : Frame := tableGet [] s.lanes p

def State.setLane (s : State) (p : PortId) (f : Frame) : State :=
  { s with lanes := tableSet [] s.lanes p f }

/-! ## Placement in an outbound queue (R122) -/

/-- Port `p` is UP and its outbound queue has a free place. -/
abbrev State.HasRoom (s : State) (p : PortId) : Prop :=
  (s.port p).state = .up ∧ (s.port p).outbound.length < Config.outboundPlaces

/-- Place a message at the tail of `p`'s outbound queue; nothing is placed without room (R122). -/
def State.place (s : State) (p : PortId) (m : OutMsg) : State :=
  if s.HasRoom p then
    s.setPort p { s.port p with outbound := (s.port p).outbound ++ [m] }
  else s

/-- Take the head of `p`'s inbound queue: it leaves the queue and its place is owed back (R117). -/
def State.takeInbound (s : State) (p : PortId) : State :=
  s.setPort p { s.port p with
    inbound := (s.port p).inbound.tail, returnedOwed := (s.port p).returnedOwed + 1 }

/-- The credits at the partner: 16, less the inbound messages, less the returned credits owed (R110). -/
def creditsAtPartner (r : Port) : Nat := Config.inboundPlaces - r.inbound.length - r.returnedOwed

/-! ## Holder sets and held counts (R7) -/

/-- Enter `a` in the holder set of `w`; the held count rises if `a` was no holder. -/
def State.addHolder (s : State) (w : WindowId) (a : AgentId) : State :=
  if hasAgent (s.window w).holders a then s
  else (s.setWindow w { s.window w with holders := addAgent (s.window w).holders a }).setAgent a
    { s.agent a with held := (s.agent a).held + 1 }

/-- Remove `a` from the holder set of `w`; the held count falls if `a` was a holder. -/
def State.dropHolder (s : State) (w : WindowId) (a : AgentId) : State :=
  if hasAgent (s.window w).holders a then
    (s.setWindow w { s.window w with holders := dropAgent (s.window w).holders a }).setAgent a
      { s.agent a with held := (s.agent a).held - 1 }
  else s

/-- Remove every member of `x` from the holder set of `w`, with its held count. -/
def State.dropHolders (s : State) (w : WindowId) (x : AgentSet) : State :=
  (agentsOf x).foldl (fun s a => s.dropHolder w a) s

/-- The agents of `x` that are PURGING. -/
def State.purgingOf (s : State) (x : AgentSet) : AgentSet :=
  (agentsOf x).foldl (fun y a => if (s.agent a).state = .purging then addAgent y a else y) 0

/-! ## Grant-part words (R163) -/

/-- Write the grant part of `w` whole, with fresh check bits: every stored error is gone (R163). -/
def State.writeGrant (s : State) (w : WindowId) (g : GrantPart) : State := s.setWord w ⟨g, []⟩

/-! ## The parking pool (R62, R63) -/

/-- The lowest-numbered FREE entry (R62). -/
def State.freeEntry (s : State) : Option EntryId :=
  allEntries.find? fun e => (s.entry e).state = .free

/-- Free entry `e`: its state goes to FREE and it leaves the list it is on; its other fields stay (R62). -/
def State.releaseEntry (s : State) (e : EntryId) : State :=
  let r := s.entry e
  let s := s.setEntry e { r with state := .free }
  match r.state with
  | .free => s
  | .parked => s.setParkOrder r.window ((s.parkOrder r.window).erase e)
  | .replay => { s with replayList := s.replayList.erase e }

/-- Drop, without an answer, every entry in use that `pick` names (R69, R70). -/
def State.dropEntries (s : State) (pick : PoolEntry → Bool) : State :=
  allEntries.foldl
    (fun s e => if (s.entry e).state ≠ .free ∧ pick (s.entry e) then s.releaseEntry e else s) s

/-- Park the request of entry `e` on window `w`, at the tail of its park order (R63). -/
def State.parkEntry (s : State) (e : EntryId) (r : Request) (p : PortId) (w : WindowId) : State :=
  (s.setEntry e ⟨.parked, r, p, w⟩).setParkOrder w (s.parkOrder w ++ [e])

/-- Move the park order of `w` whole to the tail of the replay list (R65). -/
def State.movePark (s : State) (w : WindowId) : State :=
  let l := s.parkOrder w
  let s := l.foldl (fun s e => s.setEntry e { s.entry e with state := .replay }) s
  { s.setParkOrder w [] with replayList := s.replayList ++ l }

/-! ## Change slots (R73) -/

/-- The lowest-numbered FREE slot (R76). -/
def State.freeSlot (s : State) : Option SlotId :=
  allSlots.find? fun k => (s.slot k).state = .free

/-- Remove `a` from the pending and unsent sets of slot `k` (R84). -/
def State.dropPending (s : State) (k : SlotId) (a : AgentId) : State :=
  s.setSlot k { s.slot k with
    pending := dropAgent (s.slot k).pending a, unsent := dropAgent (s.slot k).unsent a }

/-- The window a WINDOW-scope change names (R75). -/
def subjectWindow : ChangeSubject → Option WindowId
  | .modify w => some w
  | .retire w => some w
  | .close _ => none
  | .leave _ _ => none

/-- Remove `a` from slot `k`'s sets and, for WINDOW scope, from the window's holder set (R18, R84). -/
def State.dropAnswer (s : State) (k : SlotId) (a : AgentId) : State :=
  match subjectWindow (s.slot k).subject with
  | some w => (s.dropPending k a).dropHolder w a
  | none => s.dropPending k a

/-! ## The completion queue (R140) -/

/-- Post a completion record into its reserved place. -/
def State.post (s : State) (c : Completion) : State :=
  { s with completions := s.completions ++ [c], reservations := s.reservations - 1 }

/-- Post completion records in order. -/
def State.postAll (s : State) (cs : List Completion) : State := cs.foldl State.post s

/-- The command engine takes the head of the command queue: the record leaves, a place is reserved,
and the slot wait flag is clear (R140, R141). -/
def State.takeCommand (s : State) : State :=
  { s with cmdQueue := s.cmdQueue.tail, reservations := s.reservations + 1, slotWait := false }

/-! ## Holding in reset and during the INIT walk -/

/-- Nothing is taken while RESET_N is held low (R137). -/
def State.whenReleased (s : State) (f : State → State) : State := if s.resetHeld then s else f s

/-- No claim reaches the tables during the INIT walk (R23), nor while RESET_N is held low. -/
def State.whenServing (s : State) (f : State → State) : State :=
  if s.resetHeld ∨ s.init then s else f s

end Sys2Proof.Machine
end

