-- ==== Sys2Proof/Machine/Flags.lean ====
section
/-! DEFINITION. The fault banks, the attention causes and pin, and the value each register reads as. -/

namespace Sys2Proof.Machine

/-! ## Fault banks (R171) -/

/-- Record a STORAGE fault: the first is stored; a later one sets overflow and replaces the details
when its severity is higher (R171). -/
def recordStorage (b : StorageBank) (severity : Severity) (w : WindowId) (detector : Detector)
    (freeNote : Bool) : StorageBank :=
  if b.valid then
    if b.severity = .corrected ∧ severity = .uncorrected then
      ⟨true, true, severity, w, detector, freeNote⟩
    else { b with overflow := true }
  else ⟨true, false, severity, w, detector, freeNote⟩

/-- Record a recall timeout (R89, R171). -/
def recordRecall (b : RecallBank) (serial : Half) (subject : ChangeSubject) (fenced : AgentSet) :
    RecallBank :=
  if b.valid then { b with overflow := true } else ⟨true, false, serial, subject, fenced⟩

/-- Record a protocol violation (R124, R171). -/
def recordLink (b : LinkBank) (p : PortId) (kind : Violation) : LinkBank :=
  if b.valid then { b with overflow := true } else ⟨true, false, p, kind⟩

/-! ## Attention (R133, R134) -/

/-- CPL_READY: the completion queue holds a record. -/
def cplReady (s : State) : Bool := !s.completions.isEmpty

/-- FAULT: a bank is valid. -/
def faultCause (s : State) : Bool := s.storageBank.valid || s.recallBank.valid || s.linkBank.valid

/-- The four causes, in the places of ATTN_CAUSE (R180). -/
def attnCauses (s : State) : BitVec 4 :=
  BitVec.ofBool s.portChange ++ BitVec.ofBool s.cmdOverrun ++ BitVec.ofBool (faultCause s)
    ++ BitVec.ofBool (cplReady s)

/-- ATTN_N is driven low: a set cause has its enable set, and RESET_N is high (R134). -/
def attnAsserted (s : State) : Bool := !s.resetHeld && attnCauses s &&& s.attnEnable != 0

/-! ## Register reads (R126, R180) -/

/-- The word a read of CPL_WORD returns: the word after the read position of the head record (R130). -/
def nextCompletionWord (s : State) : Word :=
  match s.completions with
  | [] => 0
  | c :: _ => if s.readPosition < 8 then completionWord c s.readPosition else 0

/-- The subject word of the RECALL bank (R180). -/
def subjectWord : ChangeSubject → Word
  | .modify w => wordOf [(0, w.val)]
  | .retire w => wordOf [(0, w.val)]
  | .close c => wordOf [(0, c.val)]
  | .leave c a => wordOf [(0, c.val), (16, a.val)]

/-- The word a read of a register returns, by its offset; 0 for an offset that names none, for a
write-only register and while RESET_N is held low (R126, R180). -/
def readRegister (s : State) (offset : BitVec 8) : Word :=
  if s.resetHeld then 0 else
  match offset.toNat with
  | 0x00 => Config.idWord
  | 0x01 => wordOf [(0, flagCode s.init), (1, flagCode s.slotWait), (8, s.reservations)]
  | 0x03 => (attnCauses s).zeroExtend 32
  | 0x04 => s.attnEnable.zeroExtend 32
  | 0x05 => wordOf [(0, portStateCode (s.port 0).state), (8, portStateCode (s.port 1).state),
      (16, portStateCode (s.port 2).state), (24, portStateCode (s.port 3).state)]
  | 0x0A => wordOf [(0, Config.commandPlaces - s.cmdQueue.length)]
  | 0x0C => nextCompletionWord s
  | 0x0E => wordOf [(0, s.completions.length)]
  | 0x10 => s.recallLimit.zeroExtend 32
  | 0x11 => s.scrubInterval.zeroExtend 32
  | 0x18 => wordOf [(31, flagCode s.storageBank.valid), (30, flagCode s.storageBank.overflow),
      (0, severityCode s.storageBank.severity)]
  | 0x19 => wordOf [(0, s.storageBank.window.val), (16, detectorCode s.storageBank.detector),
      (20, flagCode s.storageBank.freeNote)]
  | 0x1C => wordOf [(31, flagCode s.recallBank.valid), (30, flagCode s.recallBank.overflow)]
  | 0x1D => wordOf [(0, s.recallBank.serial.toNat), (16, changeKindCode s.recallBank.subject)]
  | 0x1E => subjectWord s.recallBank.subject
  | 0x1F => s.recallBank.fenced
  | 0x20 => wordOf [(31, flagCode s.linkBank.valid), (30, flagCode s.linkBank.overflow)]
  | 0x21 => wordOf [(0, s.linkBank.port.val), (8, violationCode s.linkBank.kind)]
  | _ => 0

end Sys2Proof.Machine
end

