-- ==== Sys2Proof/Machine/Directory.lean ====
section
/-! DEFINITION. The window table's searches, checks and completions, the context table's part of
them, and the read of a grant part through the integrity unit. -/

namespace Sys2Proof.Machine

/-! ## Searches (R9, R10, R11) -/

/-- Local page `page` lies in the current local range of `r` (R1). -/
abbrev Covers (r : Window) (page : LocalPage) : Prop :=
  r.localBase.toNat ≤ page.toNat ∧ page.toNat < r.localBase.toNat + r.length.toNat

/-- The covering search: the window of the context's list whose range contains the page (R9). -/
def State.covering (s : State) (c : ContextId) (page : LocalPage) : Option WindowId :=
  (s.windowList c).find? fun w => Covers (s.window w) page

/-- Two runs of pages have a page in common. -/
abbrev RangesMeet (base len base' len' : Nat) : Prop :=
  max base base' < min (base + len) (base' + len')

/-- The length a MODIFY in flight will give window `w` (R10). -/
def State.plannedLength (s : State) (w : WindowId) : Option PageCount :=
  match (s.window w).slot with
  | some k => match (s.slot k).subject with
    | .modify _ => some (s.slot k).newValues.length
    | .retire _ => none
    | .close _ => none
    | .leave _ _ => none
  | none => none

/-- The range of `len` pages from `base` has a page in common with the current range of `v`, or with
the range a MODIFY in flight will give it (R10). -/
def State.meets (s : State) (base len : Nat) (v : WindowId) : Bool :=
  let r := s.window v
  decide (RangesMeet base len r.localBase.toNat r.length.toNat)
    || match s.plannedLength v with
      | some n => decide (RangesMeet base len r.localBase.toNat n.toNat)
      | none => false

/-- The overlap check on a range of context `c`, less the window `self` itself (R10). -/
def State.overlaps (s : State) (c : ContextId) (self : Option WindowId) (base len : Nat) : Bool :=
  (s.windowList c).any fun v => some v != self && s.meets base len v

/-- The first FREE id at or above `i`, within `fuel` ids. -/
def State.freeFrom (s : State) (fuel i : Nat) : Option WindowId :=
  match fuel with
  | 0 => none
  | fuel + 1 =>
    match finOf 4096 i with
    | none => none
    | some w => if (s.window w).state = .free then some w else s.freeFrom fuel (i + 1)

/-- The lowest-numbered FREE id (R11). -/
def State.freeWindow (s : State) : Option WindowId := s.freeFrom 4096 0

/-- Insert `w` in a window list at the place its local base gives (R8). -/
def State.insertByBase (s : State) (w : WindowId) (base : LocalPage) : List WindowId → List WindowId
  | [] => [w]
  | v :: l =>
    if base.toNat < (s.window v).localBase.toNat then w :: v :: l
    else v :: s.insertByBase w base l

/-- Every window of the context has an empty holder set (R29). -/
def State.noHolders (s : State) (c : ContextId) : Bool :=
  (s.windowList c).all fun w => (s.window w).holders == 0

/-- Agent `a` is in the holder set of some window of the context (R27). -/
def State.holdsIn (s : State) (c : ContextId) (a : AgentId) : Bool :=
  (s.windowList c).any fun w => hasAgent (s.window w).holders a

/-- The union of the holder sets of the context's windows (R77). -/
def State.holdersIn (s : State) (c : ContextId) : AgentSet :=
  (s.windowList c).foldl (fun x w => x ||| (s.window w).holders) 0

/-! ## What a change does to the records -/

/-- ADD_WINDOW on an allocated id (R12, R5). The holder set of a FREE record is empty already (R6); it
is emptied by the operation that keeps the held counts. -/
def State.applyAdd (s : State) (w : WindowId) (c : ContextId) (base : LocalPage) (v : NewValues) :
    State :=
  let s := s.dropHolders w (s.window w).holders
  let s := s.setWindowList c (s.insertByBase w base (s.windowList c))
  let s := s.setContext c { s.context c with windowCount := (s.context c).windowCount + 1 }
  let s := s.setWindow w ⟨.live, c, base, v.length, (s.window w).version + 1, 0, none, false⟩
  s.writeGrant w v.grant

/-- MODIFY completion, immediate or through a change (R19). -/
def State.applyModify (s : State) (w : WindowId) (v : NewValues) : State :=
  let r := s.window w
  (s.setWindow w { r with
    state := .live, length := v.length, version := r.version + 1, slot := none,
    poisoned := false }).writeGrant w v.grant

/-- A record becomes FREE: its version is kept and its grant part is zeroed (R20). -/
def State.freeRecord (s : State) (w : WindowId) : State :=
  let r := s.window w
  (s.setWindow w { r with
    state := .free, context := 0, localBase := 0, length := 0, slot := none,
    poisoned := false }).writeGrant w GrantPart.zero

/-- RETIRE completion, immediate or through a change (R20). -/
def State.applyRetire (s : State) (w : WindowId) : State :=
  let c := (s.window w).context
  let s := s.setWindowList c ((s.windowList c).erase w)
  let s := s.setContext c { s.context c with windowCount := (s.context c).windowCount - 1 }
  s.freeRecord w

/-- CLOSE completion, immediate or through a change (R21, R29). -/
def State.applyClose (s : State) (c : ContextId) : State :=
  let s := (s.windowList c).foldl (fun s w => (s.dropHolders w (s.window w).holders).freeRecord w) s
  let s := s.setWindowList c []
  s.setContext c { s.context c with
    state := .free, members := 0, leaving := 0, windowCount := 0, closingSlot := none }

/-- Steps 1 and 2 of LEAVE completion at one window: the agent leaves its holder set and the pending
and unsent sets of a change in flight on it (R95). -/
def State.leaveWindow (s : State) (a : AgentId) (w : WindowId) : State :=
  let s := s.dropHolder w a
  match (s.window w).slot with
  | some k => if hasAgent (s.slot k).pending a then s.dropPending k a else s
  | none => s

/-- Steps 1 and 2 of LEAVE completion (R95). -/
def State.leaveHoldings (s : State) (c : ContextId) (a : AgentId) : State :=
  (s.windowList c).foldl (fun s w => s.leaveWindow a w) s

/-- LEAVE completion, immediate or through a change (R28, R95). -/
def State.applyLeave (s : State) (c : ContextId) (a : AgentId) : State :=
  let s := s.leaveHoldings c a
  s.setContext c { s.context c with
    leaving := dropAgent (s.context c).leaving a, members := dropAgent (s.context c).members a }

/-! ## Grant-part reads (R161, R164) -/

/-- The outcome of a read: no differing bit reads Clean, one Single, two Double, and three or more a
free value (R161, R162; log 10). -/
def classify (x : CodeWord) : ReadOutcome :=
  match x.flipped with
  | [] => .clean x.written
  | [_] => .single x.written
  | [_, _] => .double
  | _ => Config.manyBitRead x.written x.flipped

/-- Record a STORAGE fault found on window `w` (R164, R171). -/
def State.storageFault (s : State) (severity : Severity) (w : WindowId) (detector : Detector) : State :=
  { s with storageBank :=
      recordStorage s.storageBank severity w detector (decide ((s.window w).state = .free)) }

/-- A Double read: a FREE record is rewritten zeroed, any other is poisoned (R164). -/
def State.spoil (s : State) (w : WindowId) : State :=
  if (s.window w).state = .free then s.writeGrant w GrantPart.zero
  else s.setWindow w { s.window w with poisoned := true }

/-- A read of the grant part of `w`, with the values handed to the reader; none when the window is
poisoned or the read finds a Double (R164). -/
def State.readGrant (s : State) (detector : Detector) (w : WindowId) : State × Option GrantPart :=
  if (s.window w).state ≠ .free ∧ (s.window w).poisoned then (s, none)
  else match classify (s.word w) with
    | .clean g => (s, some g)
    | .single g => ((s.storageFault .corrected w detector).writeGrant w g, some g)
    | .double => ((s.storageFault .uncorrected w detector).spoil w, none)

end Sys2Proof.Machine
end

