-- ==== Sys2Proof/Machine/Recall.lean ====
section
/-! DEFINITION. The recall engine: serials, RECALL messages, the fill of a slot and the completion of
a change. -/

namespace Sys2Proof.Machine

/-! ## Serials and RECALLs (R74, R79) -/

/-- Some ACTIVE slot holds the serial. -/
def State.serialInUse (s : State) (x : Half) : Bool :=
  allSlots.any fun k => (s.slot k).state = .active && (s.slot k).serial == x

/-- The first serial at or after `x` that no ACTIVE slot holds, within `fuel` steps. -/
def State.serialFrom (s : State) (fuel : Nat) (x : Half) : Half :=
  match fuel with
  | 0 => x
  | fuel + 1 => if s.serialInUse x then s.serialFrom fuel (x + 1) else x

/-- The serial of the next slot filled: the counter rises by one and past every serial held by an
ACTIVE slot; at most eight are held (R74). -/
def State.nextSerial (s : State) : Half := s.serialFrom 8 (s.serial + 1)

/-- What the RECALLs of a change ask for: the window at its version, or the context (R79). -/
def State.recallScope (s : State) : ChangeSubject → RecallScope
  | .modify w => .window w (s.window w).version
  | .retire w => .window w (s.window w).version
  | .close c => .context c
  | .leave c _ => .context c

/-- The RECALL of slot `k` to agent `a` (R79). -/
def State.recallMessage (s : State) (k : SlotId) (a : AgentId) (reminder : Bool) : OutMsg :=
  .recall a (s.slot k).serial (s.recallScope (s.slot k).subject) reminder

/-- The places of `p`'s outbound queue kept from agent `a`'s messages: one, in the claim of a HELLO that
ends the purge of its own agent, the one of `kept`, until that purge has ended (R33; log 14). -/
def State.keptPlaces (s : State) (kept : Option AgentId) (a : AgentId) (p : PortId) : Nat :=
  match kept with
  | some h => if h ≠ a ∧ (s.agent h).state = .purging ∧ (s.agent h).port = some p then 1 else 0
  | none => 0

/-- Agent `a`'s port, when it has room for a placement beside the place kept (R122, R33). -/
def State.roomFor (s : State) (kept : Option AgentId) (a : AgentId) : Option PortId :=
  match (s.agent a).port with
  | some p =>
    if (s.port p).state = .up ∧
        (s.port p).outbound.length + s.keptPlaces kept a p < Config.outboundPlaces then some p
    else none
  | none => none

/-- The first RECALL of slot `k` to `a`: placed, or kept in the unsent set (R80). -/
def State.firstRecall (s : State) (kept : Option AgentId) (k : SlotId) (a : AgentId) : State :=
  match s.roomFor kept a with
  | some p => s.place p (s.recallMessage k a false)
  | none => s.setSlot k { s.slot k with unsent := addAgent (s.slot k).unsent a }

/-! ## Filling a slot (R76) -/

/-- Step 5 of the fill: the changes to the window or context records (R75, R15, R27, R29). -/
def State.fillRecords (s : State) (k : SlotId) : ChangeSubject → State
  | .modify w =>
    let s := s.setWindow w { s.window w with state := .changing, slot := some k }
    s.dropHolders w (s.purgingOf (s.window w).holders)
  | .retire w =>
    let s := s.setWindow w { s.window w with state := .changing, slot := some k }
    s.dropHolders w (s.purgingOf (s.window w).holders)
  | .close c => s.setContext c { s.context c with state := .closing, closingSlot := some k }
  | .leave c a => s.setContext c { s.context c with leaving := addAgent (s.context c).leaving a }

/-- Step 6 of the fill: the pending set, from the records as step 5 left them (R77). -/
def State.pendingOf (s : State) : ChangeSubject → AgentSet
  | .modify w => (s.window w).holders
  | .retire w => (s.window w).holders
  | .close c => s.holdersIn c &&& ~~~(s.purgingOf (s.holdersIn c))
  | .leave _ a => if (s.agent a).state = .purging then 0 else oneAgent a

/-- The new values a filled slot holds: the command's for a MODIFY, else what it held (R76). -/
def filledValues (subject : ChangeSubject) (values old : NewValues) : NewValues :=
  match subject with
  | .modify _ => values
  | .retire _ => old
  | .close _ => old
  | .leave _ _ => old

/-- The fill of slot `k` (R76): serial, subject, values and tag; the records; the pending set; the
first RECALLs in ascending agent number (R80). -/
def State.fillSlot (s : State) (kept : Option AgentId) (k : SlotId) (subject : ChangeSubject)
    (values : NewValues) (tag : Half) : State :=
  let serial := s.nextSerial
  let s := { s with serial := serial }.fillRecords k subject
  let pending := s.pendingOf subject
  let s := s.setSlot k
    ⟨.active, serial, subject, filledValues subject values (s.slot k).newValues, tag, pending, 0, 0,
      false, 0, .nothing⟩
  (agentsOf pending).foldl (fun s a => s.firstRecall kept k a) s

/-! ## Completion (R91) -/

/-- The effects of a change of each kind on the window, context and agent records (R92 to R95). -/
def State.changeEffect (s : State) (subject : ChangeSubject) (values : NewValues) : State :=
  match subject with
  | .modify w => s.applyModify w values
  | .retire w => s.applyRetire w
  | .close c => s.applyClose c
  | .leave c a => s.applyLeave c a

/-- The result fields of a change, from the records before and after its effects (R96, R143). -/
def changeResult (before after : State) (subject : ChangeSubject) (serial : Half) (fenced : AgentSet) :
    Result :=
  match subject with
  | .modify w => .modified w serial fenced (after.window w).version (before.window w).poisoned
  | .retire w => .retired w serial fenced (after.window w).version
  | .close c => .close c serial fenced
  | .leave c a => .leave c a serial fenced

/-- The command kind whose change this is (R96). -/
def changeCommand : ChangeSubject → CommandKind
  | .modify _ => .modifyWindow
  | .retire _ => .retireWindow
  | .close _ => .closeContext
  | .leave _ _ => .leave

/-- DONE, or DONE_FENCED when the change fenced an agent (R96). -/
def changeStatus (fenced : AgentSet) : Status := if fenced = 0 then .done else .doneFenced

/-- The park order of a WINDOW-scope change moves to the replay list (R65, R91). -/
def State.moveParkOf (s : State) (subject : ChangeSubject) : State :=
  match subjectWindow subject with
  | some w => s.movePark w
  | none => s

/-- The completion of the change in slot `k` (R91), with its completion record (R96). -/
def State.completeSlot (s : State) (k : SlotId) : State × Completion :=
  let r := s.slot k
  let after := s.changeEffect r.subject r.newValues
  let parked := after.moveParkOf r.subject
  (parked.setSlot k { parked.slot k with state := .free },
    ⟨commandCode (changeCommand r.subject), changeStatus r.fenced, r.tag,
      changeResult s after r.subject r.serial r.fenced⟩)

/-- Slot `k` is ACTIVE and its pending set is empty: its change completes in this claim (R91). -/
abbrev State.Emptied (s : State) (k : SlotId) : Prop :=
  (s.slot k).state = .active ∧ (s.slot k).pending = 0

/-- Steps 1 and 2 of the completion of a LEAVE change in slot `k` whose pending set is empty; they may
empty window changes, which complete in the same claim (R95). -/
def State.leaveFirst (s : State) (k : SlotId) : State :=
  if s.Emptied k then
    match (s.slot k).subject with
    | .leave c a => s.leaveHoldings c a
    | .modify _ => s
    | .retire _ => s
    | .close _ => s
  else s

/-- Complete slot `k` if its pending set is empty, adding its record to those of the claim. -/
def completeIfEmptied (x : State × List Completion) (k : SlotId) : State × List Completion :=
  if x.1.Emptied k then
    let y := x.1.completeSlot k
    (y.1, x.2 ++ [y.2])
  else x

/-- Every change whose pending set is empty completes, in ascending slot number; the records follow
in that order (R91, R95; log 16). -/
def State.completeEmptied (s : State) : State × List Completion :=
  allSlots.foldl completeIfEmptied (allSlots.foldl State.leaveFirst s, [])

end Sys2Proof.Machine
end

