-- ==== Sys2Proof/Machine/Purge.lean ====
section
/-! DEFINITION. Purges and fences: the purge start, the replacement of a purge target, the fence, the
end of a purge and the fence waits it ends. -/

namespace Sys2Proof.Machine

/-! ## Starts and targets (R35, R38, R101) -/

/-- The FENCE of an agent whose target becomes FENCED: placed, owed when the port is UP and its queue
is full, and left to the next UP otherwise (R38). -/
def State.sendFence (s : State) (a : AgentId) : State :=
  match (s.agent a).port with
  | some p =>
    if s.HasRoom p then s.place p (.fence a)
    else if (s.port p).state = .up then s.setAgent a { s.agent a with fenceOwed := true }
    else s
  | none => s

/-- Step 3 of the purge start at slot `k`: a pending agent leaves the change (R101). -/
def State.quitSlot (s : State) (a : AgentId) (k : SlotId) : State :=
  if (s.slot k).state = .active ∧ hasAgent (s.slot k).pending a then s.dropAnswer k a else s

/-- Steps 1 to 4 of the purge start of agent `a` (R101, R102). -/
def State.purgeStart (s : State) (a : AgentId) (target : PurgeTarget) : State :=
  let s := s.setAgent a { s.agent a with
    state := .purging, target := some target, welcomeOwed := decide (target = .active) }
  let s := if target = .fenced then s.sendFence a else s
  let s := s.dropEntries fun e => e.request.agent == a
  let s := allSlots.foldl (fun s k => s.quitSlot a k) s
  { s with purgeSet := addAgent s.purgeSet a }

/-- A fence: a purge start toward FENCED, or the replacement of the target of a purge; an ABSENT agent
is FENCED at once and a FENCED one stays (R38). -/
def State.fence (s : State) (a : AgentId) : State :=
  let r := s.agent a
  match r.state with
  | .active => s.purgeStart a .fenced
  | .purging =>
    if r.target = some .fenced then s
    else (s.setAgent a { r with target := some .fenced, welcomeOwed := false }).sendFence a
  | .absent => s.setAgent a { r with state := .fenced }
  | .fenced => s

/-- The agent departs, by GOODBYE or by the loss of its port: a purge start toward ABSENT, or a target
ACTIVE replaced by ABSENT (R34, R35, R41). -/
def State.depart (s : State) (a : AgentId) : State :=
  let r := s.agent a
  match r.state with
  | .active => s.purgeStart a .absent
  | .purging =>
    if r.target = some .active then s.setAgent a { r with target := some .absent, welcomeOwed := false }
    else s
  | .absent => s
  | .fenced => s

/-- An agent bound to a port that leaves UP: it departs, and an owed FENCE is dropped (R41, R37). -/
def State.losePort (s : State) (p : PortId) (a : AgentId) : State :=
  if (s.agent a).port = some p then
    let s := s.depart a
    s.setAgent a { s.agent a with fenceOwed := false }
  else s

/-! ## Ends (R36) -/

/-- The port on which the owed WELCOME of `a` can be placed now (R36). -/
def State.welcomePort (s : State) (kept : Option AgentId) (a : AgentId) : Option PortId :=
  if (s.agent a).welcomeOwed then s.roomFor kept a else none

/-- The agent record takes its purge target (R36). -/
def State.reachTarget (s : State) (kept : Option AgentId) (a : AgentId) : State :=
  let r := s.agent a
  match r.target with
  | some .active =>
    match s.welcomePort kept a with
    | some p => (s.setAgent a { r with state := .active, target := none, welcomeOwed := false }).place p
        (.welcome a .accepted)
    | none => s.setAgent a { r with state := .active, target := none }
  | some .absent =>
    s.setAgent a { r with state := .absent, port := none, target := none, welcomeOwed := false }
  | some .fenced => s.setAgent a { r with state := .fenced, target := none }
  | none => s

/-- The purge of `a` ends if its held count is 0: it takes its target and leaves the purge set (R36). -/
def State.endPurge (s : State) (kept : Option AgentId) (a : AgentId) : State :=
  if (s.agent a).state = .purging ∧ (s.agent a).held = 0 then
    let s := s.reachTarget kept a
    { s with purgeSet := dropAgent s.purgeSet a }
  else s

/-- Every purge whose agent holds nothing ends, in ascending agent number: the order of R101 and R102 for
purge starts, port events and timeouts and of R103 for a visit, and the model's choice in every other
claim, where the spec gives none (a RECALL_ACK that completes a CLOSE is one; log 28). -/
def State.endPurges (s : State) (kept : Option AgentId) : State :=
  allAgents.foldl (fun s a => s.endPurge kept a) s

/-! ## Fence waits (R152) -/

/-- The completion of a FENCE_AGENT whose agent is FENCED (R151). -/
def State.fenceRecord (s : State) (f : FenceWait) : Completion :=
  ⟨commandCode .fenceAgent, .done, f.tag, .fenced f.agent (s.agent f.agent).port⟩

/-- The entries of the fence wait list whose agents have reached FENCED, in the order taken (R152). -/
def State.fencesDone (s : State) : List FenceWait :=
  s.fenceWait.filter fun f => (s.agent f.agent).state = .fenced

/-- Those entries leave the list. -/
def State.clearFences (s : State) : State :=
  { s with fenceWait := s.fenceWait.filter fun f => (s.agent f.agent).state ≠ .fenced }

/-! ## What every claim that removes holders or pending agents ends with (R91, R102) -/

/-- Emptied changes complete, then purges end, then the records are posted: those of the changes in
ascending slot number, then those of the fence waits. `late` puts the change's record last, for a
head taken when a slot frees (R91, R141; log 15). -/
def State.settle (s : State) (kept : Option AgentId) (late : Bool) : State :=
  let completed := s.completeEmptied
  let ended := completed.1.endPurges kept
  let fences := ended.fencesDone.map ended.fenceRecord
  ended.clearFences.postAll (if late then fences ++ completed.2 else completed.2 ++ fences)

end Sys2Proof.Machine
end

