-- ==== Sys2Proof/Machine/Changes.lean ====
section
/-! DEFINITION. The four change commands: their validation, their take, and the second examination of
a head that waits for a slot. -/

namespace Sys2Proof.Machine

/-! ## Validation (R142, R145, R147, R149, R150) -/

/-- What a change that carries no new values hands to the recall engine (R76). -/
def noValues : NewValues := ⟨0, GrantPart.zero⟩

/-- Validation of CLOSE_CONTEXT (R145). -/
def judgeClose (s : State) (r : CmdRecord) : Judgement :=
  match operand2 256 r with
  | none => .refused .badCommand
  | some c =>
    if (s.context c).state = .free then .refused .noContext
    else if (s.context c).state = .closing then .refused .contextClosing
    else if ((s.windowList c).any fun w => (s.window w).state = .changing) ∨
        (s.context c).leaving ≠ 0 then .refused .contextBusy
    else if s.noHolders c then .immediate (.close c) noValues
    else .needsSlot (.close c) noValues

/-- Validation of LEAVE (R147). -/
def judgeLeave (s : State) (r : CmdRecord) : Judgement :=
  match memberOperands r with
  | none => .refused .badCommand
  | some (c, a) =>
    if (s.context c).state = .free then .refused .noContext
    else if (s.context c).state = .closing then .refused .contextClosing
    else if hasAgent (s.context c).members a = false then .refused .notMember
    else if hasAgent (s.context c).leaving a then .refused .agentBusy
    else if s.holdsIn c a then .needsSlot (.leave c a) noValues
    else .immediate (.leave c a) noValues

/-- The checks RETIRE_WINDOW and MODIFY_WINDOW share, in their common order (R149, R150). -/
def windowRefusal (s : State) (w : WindowId) : Option Status :=
  if (s.window w).state = .free then some .noWindow
  else if (s.context (s.window w).context).state = .closing then some .contextClosing
  else if (s.window w).state = .changing then some .windowBusy
  else none

/-- Validation of MODIFY_WINDOW (R149). -/
def judgeModify (s : State) (r : CmdRecord) : Judgement :=
  match operand2 4096 r, valueOperands r with
  | some w, some v =>
    if InBounds (s.window w).localBase v then
      match windowRefusal s w with
      | some status => .refused status
      | none =>
        if versionOperand r ≠ (s.window w).version then .refused .versionMismatch
        else if (s.window w).poisoned then .refused .poisoned
        else if v.length ≠ (s.window w).length ∧
            s.overlaps (s.window w).context (some w) (s.window w).localBase.toNat v.length.toNat then
          .refused .overlap
        else if (s.window w).holders = 0 then .immediate (.modify w) v
        else .needsSlot (.modify w) v
    else .refused .badCommand
  | _, _ => .refused .badCommand

/-- Validation of RETIRE_WINDOW (R150). -/
def judgeRetire (s : State) (r : CmdRecord) : Judgement :=
  match operand2 4096 r with
  | none => .refused .badCommand
  | some w =>
    match windowRefusal s w with
    | some status => .refused status
    | none =>
      if (s.window w).holders = 0 then .immediate (.retire w) noValues
      else .needsSlot (.retire w) noValues

/-- Validation of a record by its kind; only the four change commands ever wait for a slot (R141). -/
def judgeChange (s : State) (r : CmdRecord) : Judgement :=
  match recordKind r with
  | some .closeContext => judgeClose s r
  | some .leave => judgeLeave s r
  | some .modifyWindow => judgeModify s r
  | some .retireWindow => judgeRetire s r
  | _ => .refused .badCommand

/-! ## Taking a change command (R76, R141) -/

/-- The completion of a command refused with `status` (R143). -/
def refusal (r : CmdRecord) (status : Status) : Completion :=
  ⟨recordCode r, status, recordTag r, .refused⟩

/-- The completion of a command applied at once (R143). -/
def applied (r : CmdRecord) (result : Result) : Completion := ⟨recordCode r, .ok, recordTag r, result⟩

/-- A change applied at once: its effects, then its record, with serial 0 and no fenced agent (R143). -/
def State.applyNow (s : State) (r : CmdRecord) (subject : ChangeSubject) (values : NewValues) : State :=
  let after := s.changeEffect subject values
  after.post (applied r (changeResult s after subject 0 0))

/-- Carry out the change command at the head of the command queue, by the judgement of it: refused,
applied at once, given the lowest FREE slot, or left at the head with the slot wait flag set when no
slot is FREE (R76, R78, R141). -/
def State.carryOut (s : State) (kept : Option AgentId) (late : Bool) (r : CmdRecord) : Judgement → State
  | .refused status => s.takeCommand.post (refusal r status)
  | .immediate subject values => s.takeCommand.applyNow r subject values
  | .needsSlot subject values =>
    match s.freeSlot with
    | none => { s with slotWait := true }
    | some k => (s.takeCommand.fillSlot kept k subject values (recordTag r)).settle kept late

/-- A head that waits for a slot is examined again, once, in the claim in which a slot is FREE (R141). -/
def State.reconsider (s : State) (kept : Option AgentId) : State :=
  if s.slotWait ∧ s.freeSlot.isSome then
    match s.cmdQueue with
    | r :: _ => s.carryOut kept true r (judgeChange s r)
    | [] => s
  else s

/-- The agent whose HELLO is being taken, when its purge ends in this claim: its WELCOME ACCEPTED takes
the place the HELLO waited for. Which purges end does not depend on the places of the queues (R33;
log 14). -/
def State.endsInClaim (s : State) (caller : Option AgentId) : Option AgentId :=
  caller.filter fun h => decide ((((s.settle none false).reconsider none).agent h).state ≠ .purging)

/-- The end of a claim that may have emptied changes or ended purges: settle, then look again at a
head that waits for a slot (R91, R141). `caller` is the agent of a HELLO claim. -/
def State.finish (s : State) (caller : Option AgentId) : State :=
  let kept := s.endsInClaim caller
  (s.settle kept false).reconsider kept

end Sys2Proof.Machine
end

