-- ==== Sys2Proof/Machine/Links.lean ====
section
/-! DEFINITION. The link ports: entry into REINIT and UP, the receiver, the transmitter and the refill. -/

namespace Sys2Proof.Machine

/-! ## Entering REINIT (R113) -/

/-- Steps 2 to 4 and 7 of the entry into REINIT: queues discarded, credits 0, flags clear, the state and
its destination, PORT_CHANGE. -/
def State.discardLink (s : State) (p : PortId) (destination : Destination) : State :=
  { s.setPort p ⟨.reinit, destination, false, false, [], [], 0, 0⟩ with portChange := true }

/-- The port event at the agent table: every agent bound to `p`, in ascending number (R41, R102). -/
def State.losePorts (s : State) (p : PortId) : State := allAgents.foldl (fun s a => s.losePort p a) s

/-- A port enters REINIT from TRAINING or UP (R113). -/
def State.enterReinit (s : State) (p : PortId) (destination : Destination) : State :=
  (((s.discardLink p destination).dropEntries fun e => e.port == p).losePorts p).finish none

/-- A protocol violation: recorded in the LINK bank, then REINIT toward TRAINING (R124). -/
def State.violation (s : State) (p : PortId) (kind : Violation) : State :=
  { s with linkBank := recordLink s.linkBank p kind }.enterReinit p .training

/-! ## Entering UP (R112) -/

/-- The FENCE of agent `a` at `p`'s entry into UP, for an agent FENCED or on its way there (R40). -/
def State.announceFence (s : State) (p : PortId) (a : AgentId) : State :=
  let r := s.agent a
  if r.port = some p ∧ (r.state = .fenced ∨ r.state = .purging ∧ r.target = some .fenced) then
    s.place p (.fence a)
  else s

/-- A port enters UP: empty queues, no returned credit owed, PORT_CHANGE, and the FENCEs of its agents
in ascending number (R112, R40). -/
def State.enterUp (s : State) (p : PortId) : State :=
  let s := { s.setPort p { s.port p with
      state := .up, readySent := true, partnerReady := true, inbound := [], outbound := [],
      returnedOwed := 0 } with
    portChange := true }
  allAgents.foldl (fun s a => s.announceFence p a) s

/-- A port enters TRAINING: both flags clear and both queues empty (R110, R112). -/
def State.enterTraining (s : State) (p : PortId) : State :=
  { s.setPort p { s.port p with
      state := .training, readySent := false, partnerReady := false, inbound := [], outbound := [],
      partnerCredits := 0, returnedOwed := 0 } with
    portChange := true }

/-! ## The receiver (R120) -/

/-- A READY that passed checks 1 to 4 (R112). -/
def State.receiveReady (s : State) (p : PortId) (count : Nat) : State :=
  if (s.port p).state = .training then
    let s := s.setPort p { s.port p with partnerReady := true, partnerCredits := count }
    if (s.port p).readySent then s.enterUp p else s
  else s.violation p .outOfState

/-- A CREDIT with a count of 1 to 32: BAD_FIELD when the sum would exceed 32, OUT_OF_STATE in TRAINING
(R118; log 12). -/
def State.receiveCredit (s : State) (p : PortId) (count : Nat) : State :=
  let r := s.port p
  if r.partnerCredits + count > Config.outboundPlaces then s.violation p .badField
  else if r.state = .up then s.setPort p { r with partnerCredits := r.partnerCredits + count }
  else s.violation p .outOfState

/-- A REINIT that passed checks 1 to 4 (R115). -/
def State.receiveReinit (s : State) (p : PortId) : State :=
  let r := s.port p
  if r.state = .up then s.enterReinit p .training
  else s.setPort p { r with partnerReady := false, partnerCredits := 0, readySent := false }

/-- An agent message that passed checks 1 to 4 (R120 checks 5 and 6, R122). -/
def State.receiveAgent (s : State) (p : PortId) (m : InMsg) : State :=
  let r := s.port p
  if r.state = .up then
    if creditsAtPartner r = 0 then s.violation p .overrun
    else s.setPort p { r with inbound := r.inbound ++ [m] }
  else s.violation p .outOfState

/-- A frame arrives on port `p`: discarded in REINIT and DISABLED, else checked and acted on (R120). -/
def State.receive (s : State) (p : PortId) (f : Frame) : State :=
  if (s.port p).state = .up ∨ (s.port p).state = .training then
    match decodeFrame f with
    | .bad kind => s.violation p kind
    | .ready count => s.receiveReady p count
    | .credit count => s.receiveCredit p count
    | .reinit => s.receiveReinit p
    | .agent m => s.receiveAgent p m
  else s

/-- READY_RECEIVED (R112). -/
def execReadyReceived (p : PortId) (f : Frame) (s : State) : Host.Outcome State Fault Refusal :=
  .next (s.whenReleased fun s => s.receive p f)

/-- CREDIT_RECEIVED (R118). -/
def execCreditReceived (p : PortId) (f : Frame) (s : State) : Host.Outcome State Fault Refusal :=
  .next (s.whenReleased fun s => s.receive p f)

/-- REINIT_RECEIVED (R115). -/
def execReinitReceived (p : PortId) (f : Frame) (s : State) : Host.Outcome State Fault Refusal :=
  .next (s.whenReleased fun s => s.receive p f)

/-- AGENT_MESSAGE_ARRIVAL (R120). -/
def execAgentMessageArrival (p : PortId) (f : Frame) (s : State) : Host.Outcome State Fault Refusal :=
  .next (s.whenReleased fun s => s.receive p f)

/-! ## The transmitter (R119) -/

/-- READY_DEPARTURE: in TRAINING, once, when no INIT walk is in progress; with the partner's READY here
already, the port enters UP (R112, R119). -/
def execReadyDeparture (p : PortId) (s : State) : Host.Outcome State Fault Refusal :=
  .next (s.whenServing fun s =>
    let r := s.port p
    if r.state = .training ∧ r.readySent = false then
      let s := s.setLane p readyFrame
      if r.partnerReady then s.enterUp p else s.setPort p { r with readySent := true }
    else s)

/-- REINIT_DEPARTURE: the port takes its destination and PORT_CHANGE is raised (R113, R119). -/
def execReinitDeparture (p : PortId) (s : State) : Host.Outcome State Fault Refusal :=
  .next (s.whenReleased fun s =>
    let r := s.port p
    if r.state = .reinit then
      let s := s.setLane p reinitFrame
      match r.destination with
      | .training => s.enterTraining p
      | .disabled => { s.setPort p { r with state := .disabled } with portChange := true }
    else s)

/-- CREDIT_DEPARTURE: the returned credits owed leave and go to 0 (R117, R119). -/
def execCreditDeparture (p : PortId) (s : State) : Host.Outcome State Fault Refusal :=
  .next (s.whenReleased fun s =>
    let r := s.port p
    if r.state = .up ∧ 0 < r.returnedOwed then
      (s.setLane p (creditFrame r.returnedOwed)).setPort p { r with returnedOwed := 0 }
    else s)

/-- OUTBOUND_DEPARTURE: with no credit to return, the head of the outbound queue leaves for one partner
credit (R118, R119). -/
def execOutboundDeparture (p : PortId) (s : State) : Host.Outcome State Fault Refusal :=
  .next (s.whenReleased fun s =>
    let r := s.port p
    match r.outbound with
    | [] => s
    | m :: rest =>
      if r.state = .up ∧ r.returnedOwed = 0 ∧ 0 < r.partnerCredits then
        (s.setLane p (outFrame m)).setPort p
          { r with outbound := rest, partnerCredits := r.partnerCredits - 1 }
      else s)

/-! ## The refill (R123) -/

/-- The owed message of agent `a`, bound to `p`: a WELCOME of an ACTIVE agent, or a FENCE; its flag is
cleared with the placement (R37). -/
def State.refillOwed (s : State) (p : PortId) (a : AgentId) : State :=
  let r := s.agent a
  if r.port = some p ∧ s.HasRoom p then
    if r.welcomeOwed ∧ r.state = .active then
      (s.setAgent a { r with welcomeOwed := false }).place p (.welcome a .accepted)
    else if r.fenceOwed then (s.setAgent a { r with fenceOwed := false }).place p (.fence a)
    else s
  else s

/-- The unsent RECALL of slot `k` to agent `a`, bound to `p`: placed, and the agent leaves the unsent
set (R81). -/
def State.refillRecall (s : State) (p : PortId) (k : SlotId) (a : AgentId) : State :=
  if (s.agent a).port = some p ∧ s.HasRoom p then
    (s.place p (s.recallMessage k a false)).setSlot k
      { s.slot k with unsent := dropAgent (s.slot k).unsent a }
  else s

/-- The unsent RECALLs of slot `k` for agents bound to `p`, in ascending agent number (R81). -/
def State.refillSlot (s : State) (p : PortId) (k : SlotId) : State :=
  if (s.slot k).state = .active then
    (agentsOf (s.slot k).unsent).foldl (fun s a => s.refillRecall p k a) s
  else s

/-- REFILL: owed messages in ascending agent number, then unsent RECALLs by slot and agent, one per
free place (R123). -/
def execRefill (p : PortId) (s : State) : Host.Outcome State Fault Refusal :=
  .next (s.whenServing fun s =>
    allSlots.foldl (fun s k => s.refillSlot p k) (allAgents.foldl (fun s a => s.refillOwed p a) s))

end Sys2Proof.Machine
end

