-- ==== Sys2Proof/Machine/Agents.lean ====
section
/-! DEFINITION. The dispatcher's claims on agent messages and the visits of the purge walk. -/

namespace Sys2Proof.Machine

/-- The head of `p`'s inbound queue, while the port is UP (R121). -/
def State.inboundHead (s : State) (p : PortId) : Option InMsg :=
  if (s.port p).state = .up then (s.port p).inbound.head? else none

/-! ## HELLO (R33) -/

/-- The agent table's part of a HELLO of `a` on port `p` (R33, table). -/
def State.takeHello (s : State) (p : PortId) (a : AgentId) : State :=
  let r := s.agent a
  let tellFenced (r : Agent) : State :=
    (s.setAgent a { r with port := some p, fenceOwed := false }).place p (.welcome a .fenced)
  if r.state = .absent then
    (s.setAgent a { r with state := .active, port := some p }).place p (.welcome a .accepted)
  else if r.state = .fenced ∧ r.port = none then tellFenced r
  else if r.port ≠ some p then s.place p (.welcome a .duplicate)
  else if r.state = .active then (s.purgeStart a .active).finish (some a)
  else if r.state = .fenced then tellFenced r
  else if r.target = some .fenced then tellFenced r
  else if r.target = some .absent then
    s.setAgent a { r with target := some .active, welcomeOwed := true }
  else s

/-- HELLO: taken from the inbound head once the outbound queue has a free place (R33, R121). -/
def execHello (p : PortId) (s : State) : Host.Outcome State Fault Refusal :=
  .next (s.whenServing fun s =>
    match s.inboundHead p with
    | some (.hello a) => if s.HasRoom p then (s.takeInbound p).takeHello p a else s
    | _ => s)

/-! ## GOODBYE (R34) -/

/-- The agent table's part of a GOODBYE of `a` on port `p`: taken from an ACTIVE or PURGING agent bound
to `p`, else discarded (R34). -/
def State.takeGoodbye (s : State) (p : PortId) (a : AgentId) : State :=
  if (s.agent a).port = some p ∧ ((s.agent a).state = .active ∨ (s.agent a).state = .purging) then
    (s.depart a).finish none
  else s

/-- GOODBYE: taken from the inbound head at once (R34, R121). -/
def execGoodbye (p : PortId) (s : State) : Host.Outcome State Fault Refusal :=
  .next (s.whenServing fun s =>
    match s.inboundHead p with
    | some (.goodbye a) => (s.takeInbound p).takeGoodbye p a
    | _ => s)

/-! ## RELEASE (R17) -/

/-- The conditions under which a RELEASE is taken; otherwise it is discarded (R17). -/
abbrev State.ReleaseHolds (s : State) (p : PortId) (a : AgentId) (w : WindowId) (version : Half) : Prop :=
  ((s.agent a).state = .active ∨ (s.agent a).state = .purging) ∧ (s.agent a).port = some p ∧
    (s.window w).state ≠ .free ∧ (s.window w).version = version ∧ hasAgent (s.window w).holders a

/-- The holding goes; for a CHANGING window the agent also leaves the change's sets (R17). -/
def State.takeRelease (s : State) (p : PortId) (a : AgentId) (w : WindowId) (version : Half) : State :=
  if s.ReleaseHolds p a w version then
    let s := s.dropHolder w a
    let s := match (s.window w).slot with
      | some k => s.dropPending k a
      | none => s
    s.finish none
  else s

/-- RELEASE: taken from the inbound head at once (R17, R121). -/
def execRelease (p : PortId) (s : State) : Host.Outcome State Fault Refusal :=
  .next (s.whenServing fun s =>
    match s.inboundHead p with
    | some (.release a w version) => (s.takeInbound p).takeRelease p a w version
    | _ => s)

/-! ## RECALL_ACK (R82) -/

/-- The ACTIVE slot with the serial in which `a`, ACTIVE and bound to `p`, is pending (R82). -/
def State.matchAck (s : State) (p : PortId) (a : AgentId) (serial : Half) : Option SlotId :=
  if (s.agent a).state = .active ∧ (s.agent a).port = some p then
    allSlots.find? fun k => (s.slot k).state = .active && (s.slot k).serial == serial
      && hasAgent (s.slot k).pending a
  else none

/-- A matched answer removes the agent from the change, and for WINDOW scope from the window's holder
set; any other is discarded (R82, R83, R18). -/
def State.takeAck (s : State) (p : PortId) (a : AgentId) (serial : Half) : State :=
  match s.matchAck p a serial with
  | some k => (s.dropAnswer k a).finish none
  | none => s

/-- RECALL_ACK: taken from the inbound head at once (R82, R121). -/
def execRecallAck (p : PortId) (s : State) : Host.Outcome State Fault Refusal :=
  .next (s.whenServing fun s =>
    match s.inboundHead p with
    | some (.recallAck a serial) => (s.takeInbound p).takeAck p a serial
    | _ => s)

/-! ## The purge walk (R103) -/

/-- PURGE_VISIT: while the purge set is not empty, its members leave the visited record's holder set,
the walk moves on, and purges whose held count reaches 0 end (R103, R104). -/
def execPurgeVisit (s : State) : Host.Outcome State Fault Refusal :=
  .next (s.whenServing fun s =>
    if s.purgeSet = 0 then s
    else
      let w := s.walkPosition
      let s := if (s.window w).state = .free then s else s.dropHolders w s.purgeSet
      { s with walkPosition := w + 1 }.finish none)

end Sys2Proof.Machine
end

