-- ==== Sys2Proof/Machine/Lookup.lean ====
section
/-! DEFINITION. The lookup engine: the arbiter, the ten checks, the answers, and the parking of a
request that meets a CHANGING window. -/

namespace Sys2Proof.Machine

/-! ## The arbiter (R43 to R45) -/

/-- The request for lookup service that port `p` holds: its head is a TRANSLATE, it is UP and its
outbound queue has a free place (R43). -/
def State.portRequest (s : State) (p : PortId) : Option Request :=
  if s.HasRoom p then
    match (s.port p).inbound with
    | .translate r :: _ => some r
    | _ => none
  else none

/-- The ports in the order that starts after the last port served and wraps from 3 to 0 (R45). -/
def State.rotation (s : State) : List PortId :=
  [s.lastPort + 1, s.lastPort + 2, s.lastPort + 3, s.lastPort]

/-- The replay head, when the outbound queue of its port has a free place (R45, item 1). -/
def State.replayHead (s : State) : Option EntryId :=
  match s.replayList with
  | e :: _ => if s.HasRoom (s.entry e).port then some e else none
  | [] => none

/-- The port the arbiter serves: the first in rotation that holds a request, and only when the replay
head cannot be served (R45, item 2). -/
def State.portToServe (s : State) : Option PortId :=
  if s.replayHead.isSome then none else s.rotation.find? fun p => (s.portRequest p).isSome

/-! ## Checks 1 to 8 (R47 to R51) -/

/-- Checks 1 to 8 on a request answered on port `p`, in order; the first that fails decides. -/
def State.lookupChecks (s : State) (p : PortId) (r : Request) : LookupCheck :=
  if (s.agent r.agent).state = .absent ∨ (s.agent r.agent).port ≠ some p then .deny .notJoined
  else if (s.agent r.agent).state = .fenced then .deny .fenced
  else if (s.agent r.agent).state = .purging then .deny .retry
  else if (s.context r.context).state = .free then .deny .noContext
  else if (s.context r.context).state = .closing then .deny .closing
  else if hasAgent (s.context r.context).members r.agent = false ∨
      hasAgent (s.context r.context).leaving r.agent then .deny .notMember
  else match s.covering r.context r.page with
    | none => .deny .noWindow
    | some w => if (s.window w).state = .changing then .changing w else .live w

/-! ## Answers (R53 to R55) -/

/-- The access kind is a member of the rights (R53). -/
def admits (rights : Rights) : AccessKind → Bool
  | .read => rights.read
  | .write => rights.write
  | .atomic => rights.atomic

/-- A DENY on port `p` with the request's agent and tag (R55). -/
def State.deny (s : State) (p : PortId) (r : Request) (reason : DenyReason) : State :=
  s.place p (.deny r.agent r.tag reason)

/-- The GRANT of window `w` to a request: holder registration, then the message (R14, R54). -/
def State.grant (s : State) (p : PortId) (r : Request) (w : WindowId) (g : GrantPart) : State :=
  (s.addHolder w r.agent).place p
    (.grant r.agent r.tag w (s.window w).version (s.window w).localBase (s.window w).length g)

/-- Checks 9 and 10 on a LIVE window, and the answer (R52, R53, R54). -/
def State.answerLive (s : State) (p : PortId) (r : Request) (w : WindowId) : State :=
  let x := s.readGrant .lookup w
  match x.2 with
  | none => x.1.deny p r .poisoned
  | some g => if admits g.rights r.kind then x.1.grant p r w g else x.1.deny p r .rights

/-- A port request that meets CHANGING window `w`: it takes the lowest FREE entry, or is denied RETRY
when every entry is in use (R51, R64). -/
def State.park (s : State) (p : PortId) (r : Request) (w : WindowId) : State :=
  match s.freeEntry with
  | some e => s.parkEntry e r p w
  | none => s.deny p r .retry

/-- The lookup claim on the TRANSLATE at the head of port `p` (R46). -/
def State.serve (s : State) (p : PortId) (r : Request) : State :=
  let s := { s.takeInbound p with lastPort := p }
  match s.lookupChecks p r with
  | .deny reason => s.deny p r reason
  | .changing w => s.park p r w
  | .live w => s.answerLive p r w

/-- LOOKUP: the arbiter serves a port request (R45, R46). -/
def execLookup (s : State) : Host.Outcome State Fault Refusal :=
  .next (s.whenServing fun s =>
    match s.portToServe with
    | some p => match s.portRequest p with
      | some r => s.serve p r
      | none => s
    | none => s)

/-- An answered entry goes to FREE; its other fields stay (R66). -/
def State.closeEntry (s : State) (e : EntryId) : State :=
  s.setEntry e { s.entry e with state := .free }

/-- The lookup claim on entry `e` of the replay list: a GRANT or a DENY frees the entry, and a CHANGING
window parks it again in the entry it holds (R56, R66, R67). -/
def State.serveReplay (s : State) (e : EntryId) : State :=
  let x := s.entry e
  let s := { s with replayList := s.replayList.erase e }
  match s.lookupChecks x.port x.request with
  | .deny reason => (s.deny x.port x.request reason).closeEntry e
  | .changing w => s.parkEntry e x.request x.port w
  | .live w => (s.answerLive x.port x.request w).closeEntry e

/-- REPLAY: the arbiter serves the head of the replay list (R45, R66). -/
def execReplay (s : State) : Host.Outcome State Fault Refusal :=
  .next (s.whenServing fun s =>
    match s.replayHead with
    | some e => s.serveReplay e
    | none => s)

end Sys2Proof.Machine
end

