-- ==== Sys2Proof/Machine/Reset.lean ====
section
/-! DEFINITION. The two resets, the INIT walk and the stored errors. -/

namespace Sys2Proof.Machine

/-! ## The INIT walk (R23, R30, R42) -/

/-- What the walk leaves in the tables: every window, grant part, window list, context and agent at the
values of the last columns of R1, R24 and R31. -/
def State.initTables (s : State) : State :=
  { s with windows := [], grants := [], windowLists := [], contexts := [], agents := [] }

/-- The walk ends: the tables hold its values and STATUS.INIT is clear (R23, R132; log 4). -/
def State.endWalk (s : State) : State := { s.initTables with init := false, walkTicks := 0 }

/-- INIT_WALK_END (R23). -/
def execInitWalkEnd (s : State) : Host.Outcome State Fault Refusal :=
  .next (s.whenReleased fun s => if s.init then s.endWalk else s)

/-! ## Device reset (R137) -/

/-- RESET_N_ASSERT: RESET_N is low from here on (R137). -/
def execResetNAssert (s : State) : Host.Outcome State Fault Refusal :=
  .next { s with resetHeld := true }

/-- RESET_N_RELEASE: every block takes its device reset value and the INIT walk begins (R137). -/
def execResetNRelease (s : State) : Host.Outcome State Fault Refusal :=
  .next (if s.resetHeld then { State.reset with pending := s.pending } else s)

/-! ## Soft reset (R138) -/

/-- Step 1: the command engine's queues and the staging record (R139). -/
def State.clearCommands (s : State) : State :=
  { s with cmdQueue := [], staging := [], completions := [], reservations := 0, readPosition := 0,
           slotWait := false, fenceWait := [] }

/-- Steps 2 and 3: slots, serial counter, pool, purge engine and arbiter (R97, R72, R109, R44). -/
def State.clearEngines (s : State) : State :=
  { s with slots := [], serial := 0, pool := [], parkOrders := [], replayList := [], purgeSet := 0,
           walkPosition := 0, lastPort := 3 }

/-- Step 6 at one port: TRAINING and UP enter REINIT toward TRAINING (R116). -/
def State.softResetPort (s : State) (p : PortId) : State :=
  if (s.port p).state = .training ∨ (s.port p).state = .up then s.discardLink p .training else s

/-- Step 7: STATUS.INIT, the walk from its beginning, and the scrubber (R23, R166). -/
def State.beginWalk (s : State) : State :=
  { s.initTables with init := true, walkTicks := 0, scrubPosition := 0, scrubTimer := 0,
                      scrubAhead := false }

/-- The soft reset claim (R138). Step 4 sets the agents and empties the holder sets; the model's walk
writes the tables where it begins (log 4). -/
def State.softReset (s : State) : State :=
  let s := s.clearCommands.clearEngines.initTables
  let s := { s with cmdOverrun := false, portChange := false }
  (allPorts.foldl State.softResetPort s).beginWalk

/-- SOFT_RESET: a write to CONTROL; a 1 in bit 0 takes a soft reset and other bits are ignored (R126,
R138, R180). -/
def execSoftReset (value : Word) (s : State) : Host.Outcome State Fault Refusal :=
  .next (s.whenReleased fun s => if value.getLsbD 0 then s.softReset else s)

/-! ## Stored errors (R162) -/

/-- The bits that differ after bit `b` of the stored word changes, in rising order. -/
def toggleBit (l : List CodeBit) (b : CodeBit) : List CodeBit :=
  match l with
  | [] => [b]
  | c :: rest => if b < c then b :: c :: rest else if b = c then rest else c :: toggleBit rest b

/-- STORED_ERROR: one bit of the stored word changes, at any time, and no other state (R162; log 9). -/
def execStoredError (w : WindowId) (bit : CodeBit) (s : State) : Host.Outcome State Fault Refusal :=
  .next (s.setWord w { s.word w with flipped := toggleBit (s.word w).flipped bit })

end Sys2Proof.Machine
end

