-- ==== Sys2Proof/Machine/Timers.lean ====
section
/-! DEFINITION. The timebase: the recall timers of the slots, the scrubber and the bound on the INIT
walk. A tick marks what it makes due for the slots, and each due event is a claim of its own (log 6); the
scrub read is made in the scrubber's own event of a tick (log 7). -/

namespace Sys2Proof.Machine

/-! ## The reminder (R87) -/

/-- The reminder of slot `k` to agent `a`; not kept when its port has no room (R87). -/
def State.remind (s : State) (k : SlotId) (a : AgentId) : State :=
  match s.roomFor none a with
  | some p => s.place p (s.recallMessage k a true)
  | none => s

/-- The reminder of slot `k`: the flag is set, and each pending agent not in the unsent set is sent a
RECALL marked as a reminder, in ascending agent number (R87). -/
def State.takeReminder (s : State) (k : SlotId) : State :=
  let s := s.setSlot k { s.slot k with reminderSent := true, due := .nothing }
  (agentsOf ((s.slot k).pending &&& ~~~(s.slot k).unsent)).foldl (fun s a => s.remind k a) s

/-- The event that is due for slot `k`, while it is ACTIVE. -/
def State.dueOf (s : State) (k : SlotId) : DueEvent :=
  if (s.slot k).state = .active then (s.slot k).due else .nothing

/-- RECALL_REMINDER, taken when it is due (R86, R87). -/
def execRecallReminder (k : SlotId) (s : State) : Host.Outcome State Fault Refusal :=
  .next (s.whenServing fun s => if s.dueOf k = .reminder then s.takeReminder k else s)

/-! ## The timeout (R88) -/

/-- Steps 1 to 3 of the timeout of slot `k`: the pending agents go to the fenced set, leave the
window's holder set for WINDOW scope, and the RECALL bank records (R88, R89). -/
def State.lapse (s : State) (k : SlotId) : State :=
  let r := s.slot k
  let s := s.setSlot k { r with
    fenced := r.fenced ||| r.pending, pending := 0, unsent := 0, due := .nothing }
  let s := match subjectWindow r.subject with
    | some w => s.dropHolders w r.pending
    | none => s
  { s with recallBank := recordRecall s.recallBank r.serial r.subject (r.fenced ||| r.pending) }

/-- The timeout of slot `k`: its late agents are fenced in ascending number, and every emptied change
completes (R88). -/
def State.timeOut (s : State) (k : SlotId) : State :=
  ((agentsOf (s.slot k).pending).foldl (fun s a => s.fence a) (s.lapse k)).finish none

/-- RECALL_TIMEOUT, taken when it is due (R86, R88). -/
def execRecallTimeout (k : SlotId) (s : State) : Host.Outcome State Fault Refusal :=
  .next (s.whenServing fun s => if s.dueOf k = .timeout then s.timeOut k else s)

/-! ## The scrubber (R167, R168) -/

/-- The timer, raised by the next tick, reaches or exceeds the stored interval, which is not 0 (R167). -/
abbrev State.ScrubReached (s : State) : Prop :=
  s.scrubInterval ≠ 0 ∧ s.scrubInterval.toNat * Config.scrubUnit ≤ s.scrubTimer + 1

/-- The tick that reaches the interval: the record at the position is read, the position rises by one and
the timer is set to 0, in one claim (R167, R168). -/
def State.scrub (s : State) : State :=
  { (s.readGrant .scrub s.scrubPosition).1 with
    scrubPosition := s.scrubPosition + 1, scrubTimer := 0 }

/-- SCRUB_READ: the scrubber takes its event of the next tick, ahead of the slots, when that event reaches
the interval (R135, R167, R168; log 7). -/
def execScrubRead (s : State) : Host.Outcome State Fault Refusal :=
  .next (s.whenServing fun s =>
    if s.scrubAhead = false ∧ s.ScrubReached then { s.scrub with scrubAhead := true } else s)

/-! ## The tick (R135) -/

/-- The event due for slot `k` and not taken yet is taken now (log 6). -/
def State.takeDue (s : State) (k : SlotId) : State :=
  match s.dueOf k with
  | .nothing => s
  | .reminder => s.takeReminder k
  | .timeout => s.timeOut k

/-- What the tick before this one made due and no claim has taken, slots in ascending number (log 6). -/
def State.takeAllDue (s : State) : State := allSlots.foldl State.takeDue s

/-- What a tick finds outstanding: the due events, or the end of a walk that has had its 200 ticks
(logs 5, 6). -/
def State.catchUp (s : State) : State :=
  if s.init then (if Config.walkBound ≤ s.walkTicks then s.endWalk else s) else s.takeAllDue

/-- What a slot's elapsed time makes due under the stored limit (R86). -/
def dueAt (limit : BitVec 12) (r : Slot) : DueEvent :=
  if limit.toNat * Config.recallUnit ≤ r.elapsed then .timeout
  else if 2 ≤ limit.toNat ∧ r.reminderSent = false ∧
      limit.toNat / 2 * Config.recallUnit ≤ r.elapsed then .reminder
  else .nothing

/-- The tick at slot `k`: an ACTIVE slot's elapsed time rises by one and is compared (R86). -/
def State.tickSlot (s : State) (k : SlotId) : State :=
  let r := { s.slot k with elapsed := (s.slot k).elapsed + 1 }
  if r.state = .active then s.setSlot k { r with due := dueAt s.recallLimit r } else s

/-- The tick at the scrubber, with the read in the same claim when it reaches the interval (R167); nothing
when the scrubber has taken its event of this tick already (log 7). -/
def State.tickScrubber (s : State) : State :=
  if s.init ∨ s.scrubInterval = 0 then { s with scrubTimer := 0, scrubAhead := false }
  else if s.scrubAhead then { s with scrubAhead := false }
  else if s.ScrubReached then s.scrub
  else { s with scrubTimer := s.scrubTimer + 1 }

/-- The tick counted against the bound of the INIT walk (R23, R135). -/
def State.tickWalk (s : State) : State :=
  if s.init then { s with walkTicks := s.walkTicks + 1 } else s

/-- TIMEBASE_TICK (R135): the slots count and compare, then the scrubber, in this claim. A slot's due event
is taken in a claim after it, so the scrub read of a tick comes before the reminders and timeouts of the
same tick: the model's choice, where R135 gives no order and R169 allows either (logs 6, 7). -/
def execTimebaseTick (s : State) : Host.Outcome State Fault Refusal :=
  .next (s.whenReleased fun s =>
    ((allSlots.foldl State.tickSlot s.catchUp).tickScrubber).tickWalk)

end Sys2Proof.Machine
end

