-- ==== Sys2Proof/Machine/Commands.lean ====
section
/-! DEFINITION. The command engine's takes: one claim for each kind of command, and one for a record of
no known kind. -/

namespace Sys2Proof.Machine

/-! ## Taking (R140) -/

/-- A place can be reserved: completion records and reservations together number fewer than 16 (R140). -/
abbrev State.HasReservation (s : State) : Prop :=
  s.completions.length + s.reservations < Config.completionPlaces

/-- The record the command engine takes: the head of the command queue, of the kind given, while a
place can be reserved and the slot wait flag is clear (R140). -/
def State.headFor (s : State) (kind : Option CommandKind) : Option CmdRecord :=
  match s.cmdQueue with
  | r :: _ => if s.slotWait = false ∧ s.HasReservation ∧ recordKind r = kind then some r else none
  | [] => none

/-- A take: no take is made in reset, nor during the INIT walk, nor without a head of the kind (R140). -/
def State.takeHead (s : State) (kind : Option CommandKind) (f : CmdRecord → State → State) : State :=
  s.whenServing fun s =>
    match s.headFor kind with
    | some r => f r s
    | none => s

/-- A command refused in its take claim: no record changes, and its completion is posted (R142, R143). -/
def State.refuse (s : State) (r : CmdRecord) (status : Status) : State :=
  s.takeCommand.post (refusal r status)

/-- BAD_COMMAND: a record whose kind code is not one of the fifteen (R142, R178). -/
def execBadCommand (s : State) : Host.Outcome State Fault Refusal :=
  .next (s.takeHead none fun r s => s.refuse r .badCommand)

/-! ## Context commands (R144 to R147) -/

/-- The take of OPEN_CONTEXT (R144). -/
def State.openContext (s : State) (r : CmdRecord) : State :=
  match operand2 256 r with
  | none => s.refuse r .badCommand
  | some c =>
    if (s.context c).state = .opened then s.refuse r .contextBusy
    else if (s.context c).state = .closing then s.refuse r .contextClosing
    else ((s.takeCommand.setContext c ⟨.opened, 0, 0, 0, none⟩).setWindowList c []).post
      (applied r (.context c))

/-- OPEN_CONTEXT (R144). -/
def execOpenContext (s : State) : Host.Outcome State Fault Refusal :=
  .next (s.takeHead (some .openContext) fun r s => s.openContext r)

/-- CLOSE_CONTEXT (R145). -/
def execCloseContext (s : State) : Host.Outcome State Fault Refusal :=
  .next (s.takeHead (some .closeContext) fun r s => s.carryOut none false r (judgeClose s r))

/-- The take of JOIN (R146, R26). -/
def State.joinContext (s : State) (r : CmdRecord) : State :=
  match memberOperands r with
  | none => s.refuse r .badCommand
  | some (c, a) =>
    if (s.context c).state = .free ∨ (s.context c).state = .closing then s.refuse r .noContext
    else if hasAgent (s.context c).members a then s.refuse r .alreadyMember
    else (s.takeCommand.setContext c
        { s.context c with members := addAgent (s.context c).members a }).post
      (applied r (.member c a))

/-- JOIN (R146). -/
def execJoin (s : State) : Host.Outcome State Fault Refusal :=
  .next (s.takeHead (some .join) fun r s => s.joinContext r)

/-- LEAVE (R147). -/
def execLeave (s : State) : Host.Outcome State Fault Refusal :=
  .next (s.takeHead (some .leave) fun r s => s.carryOut none false r (judgeLeave s r))

/-! ## Window commands (R148 to R150) -/

/-- State and resource checks of ADD_WINDOW on a range of context `c`, and its effect (R148, R11, R12). -/
def State.addChecked (s : State) (r : CmdRecord) (c : ContextId) (v : NewValues) : State :=
  if (s.context c).state = .free then s.refuse r .noContext
  else if (s.context c).state = .closing then s.refuse r .contextClosing
  else if s.overlaps c none (localBaseOperand r).toNat v.length.toNat then s.refuse r .overlap
  else match s.freeWindow with
    | none => s.refuse r .tableFull
    | some w =>
      let s := s.takeCommand.applyAdd w c (localBaseOperand r) v
      s.post (applied r (.added w (s.window w).version))

/-- The take of ADD_WINDOW (R148). -/
def State.addWindow (s : State) (r : CmdRecord) : State :=
  match operand2 256 r, valueOperands r with
  | some c, some v =>
    if InBounds (localBaseOperand r) v then s.addChecked r c v else s.refuse r .badCommand
  | _, _ => s.refuse r .badCommand

/-- ADD_WINDOW (R148). -/
def execAddWindow (s : State) : Host.Outcome State Fault Refusal :=
  .next (s.takeHead (some .addWindow) fun r s => s.addWindow r)

/-- MODIFY_WINDOW (R149). -/
def execModifyWindow (s : State) : Host.Outcome State Fault Refusal :=
  .next (s.takeHead (some .modifyWindow) fun r s => s.carryOut none false r (judgeModify s r))

/-- RETIRE_WINDOW (R150). -/
def execRetireWindow (s : State) : Host.Outcome State Fault Refusal :=
  .next (s.takeHead (some .retireWindow) fun r s => s.carryOut none false r (judgeRetire s r))

/-! ## Agent commands (R151, R153) -/

/-- The take of FENCE_AGENT: done at once for an ABSENT or FENCED agent; otherwise the command joins
the fence wait list and completes when the agent is FENCED, last of the claim's records when that is
this claim (R151, R152). -/
def State.fenceAgent (s : State) (r : CmdRecord) : State :=
  match operand2 32 r with
  | none => s.refuse r .badCommand
  | some a =>
    let wait : FenceWait := ⟨recordTag r, a⟩
    if (s.agent a).state = .absent ∨ (s.agent a).state = .fenced then
      let s := s.takeCommand.fence a
      s.post (s.fenceRecord wait)
    else ({ s.takeCommand with fenceWait := s.fenceWait ++ [wait] }.fence a).finish none

/-- FENCE_AGENT (R151). -/
def execFenceAgent (s : State) : Host.Outcome State Fault Refusal :=
  .next (s.takeHead (some .fenceAgent) fun r s => s.fenceAgent r)

/-- The port on which the UNFENCE of `a` is placed: its own, UP and with a free place (R39). -/
def State.unfencePort (s : State) (a : AgentId) : Option PortId := s.roomFor none a

/-- The take of UNFENCE_AGENT (R153, R39). -/
def State.unfenceAgent (s : State) (r : CmdRecord) : State :=
  match operand2 32 r with
  | none => s.refuse r .badCommand
  | some a =>
    if (s.agent a).state = .fenced then
      let t := s.takeCommand.setAgent a
        { s.agent a with state := .absent, port := none, fenceOwed := false }
      let t := match s.unfencePort a with
        | some p => t.place p (.unfence a)
        | none => t
      t.post (applied r (.unfenced a (s.agent a).port (s.unfencePort a).isSome))
    else s.refuse r .agentState

/-- UNFENCE_AGENT (R153). -/
def execUnfenceAgent (s : State) : Host.Outcome State Fault Refusal :=
  .next (s.takeHead (some .unfenceAgent) fun r s => s.unfenceAgent r)

/-! ## Queries (R154 to R156) -/

/-- The key fields a query reports: for a FREE record the version alone, every other field reading 0
(R154). -/
def reportedKey (r : Window) : Window :=
  if r.state = .free then { Window.initial with version := r.version } else r

/-- The take of QUERY_WINDOW: the poisoned flag is reported as the read leaves it, and the grant fields
read 0 when the read hands none (R154). -/
def State.queryWindow (s : State) (r : CmdRecord) : State :=
  match operand2 4096 r with
  | none => s.refuse r .badCommand
  | some w =>
    let x := s.takeCommand.readGrant .query w
    x.1.post (applied r (.window w (reportedKey (x.1.window w)) (x.2.getD GrantPart.zero)))

/-- QUERY_WINDOW (R154). -/
def execQueryWindow (s : State) : Host.Outcome State Fault Refusal :=
  .next (s.takeHead (some .queryWindow) fun r s => s.queryWindow r)

/-- The take of QUERY_AGENT (R155). -/
def State.queryAgent (s : State) (r : CmdRecord) : State :=
  match operand2 32 r with
  | none => s.refuse r .badCommand
  | some a => s.takeCommand.post (applied r (.agent a (s.agent a)))

/-- QUERY_AGENT (R155). -/
def execQueryAgent (s : State) : Host.Outcome State Fault Refusal :=
  .next (s.takeHead (some .queryAgent) fun r s => s.queryAgent r)

/-- The take of QUERY_CONTEXT (R156). -/
def State.queryContext (s : State) (r : CmdRecord) : State :=
  match operand2 256 r with
  | none => s.refuse r .badCommand
  | some c => s.takeCommand.post (applied r (.contextRecord c (s.context c)))

/-- QUERY_CONTEXT (R156). -/
def execQueryContext (s : State) : Host.Outcome State Fault Refusal :=
  .next (s.takeHead (some .queryContext) fun r s => s.queryContext r)

/-! ## Port commands (R157 to R159) -/

/-- A port command applied: its record reports the port's state at the end of the claim (R157). -/
def State.postPort (s : State) (r : CmdRecord) (p : PortId) : State :=
  s.post (applied r (.port p (s.port p).state))

/-- The take of PORT_ENABLE (R157, R112). -/
def State.enablePort (s : State) (r : CmdRecord) : State :=
  match operand2 4 r with
  | none => s.refuse r .badCommand
  | some p =>
    if (s.port p).state = .disabled then (s.takeCommand.enterTraining p).postPort r p
    else s.refuse r .portBusy

/-- PORT_ENABLE (R157). -/
def execPortEnable (s : State) : Host.Outcome State Fault Refusal :=
  .next (s.takeHead (some .portEnable) fun r s => s.enablePort r)

/-- PORT_DISABLE of a port by its state (R114). -/
def State.disableLink (s : State) (p : PortId) : State :=
  match (s.port p).state with
  | .training => s.enterReinit p .disabled
  | .up => s.enterReinit p .disabled
  | .reinit => s.setPort p { s.port p with destination := .disabled }
  | .disabled => s

/-- The take of PORT_DISABLE; the command's own record is the claim's last (R158). -/
def State.disablePort (s : State) (r : CmdRecord) : State :=
  match operand2 4 r with
  | none => s.refuse r .badCommand
  | some p => (s.takeCommand.disableLink p).postPort r p

/-- PORT_DISABLE (R158). -/
def execPortDisable (s : State) : Host.Outcome State Fault Refusal :=
  .next (s.takeHead (some .portDisable) fun r s => s.disablePort r)

/-- The take of PORT_RESET; the command's own record is the claim's last (R159). -/
def State.resetPort (s : State) (r : CmdRecord) : State :=
  match operand2 4 r with
  | none => s.refuse r .badCommand
  | some p =>
    if (s.port p).state = .up then (s.takeCommand.enterReinit p .training).postPort r p
    else s.refuse r .portBusy

/-- PORT_RESET (R159). -/
def execPortReset (s : State) : Host.Outcome State Fault Refusal :=
  .next (s.takeHead (some .portReset) fun r s => s.resetPort r)

end Sys2Proof.Machine
end

