-- ==== Sys2Proof/Machine/Registers.lean ====
section
/-! DEFINITION. The writes to the register window and the read of CPL_WORD. -/

namespace Sys2Proof.Machine

/-! ## Posting (R127, R128) -/

/-- A write to CMD_WORD: the value joins the staging record while it holds fewer than six words (R127). -/
def State.stage (s : State) (value : Word) : State :=
  if s.staging.length < 6 then { s with staging := s.staging ++ [value] } else s

/-- The command record of the staged words; those not staged are 0 (R128). -/
def stagedRecord (l : List Word) : CmdRecord :=
  ⟨l.getD 0 0, l.getD 1 0, l.getD 2 0, l.getD 3 0, l.getD 4 0, l.getD 5 0⟩

/-- A write to CMD_POST: the staging record is emptied; the record is queued, or dropped with
CMD_OVERRUN when 16 records are queued (R128). -/
def State.postCommand (s : State) : State :=
  if s.cmdQueue.length < Config.commandPlaces then
    { s with staging := [], cmdQueue := s.cmdQueue ++ [stagedRecord s.staging] }
  else { s with staging := [], cmdOverrun := true }

/-! ## Completions (R130, R131) -/

/-- A read of CPL_WORD: the word it returns, and the read position after it (R130). -/
def State.readCompletion (s : State) : State :=
  if s.completions.isEmpty = false ∧ s.readPosition < 8 then
    { s with readData := nextCompletionWord s, readPosition := s.readPosition + 1 }
  else { s with readData := nextCompletionWord s }

/-- A write to CPL_POP (R131). -/
def State.popCompletion (s : State) : State :=
  match s.completions with
  | [] => s
  | _ :: rest => { s with completions := rest, readPosition := 0 }

/-! ## Attention, configuration and fault banks -/

/-- A write to ATTN_CAUSE clears each sticky cause written with 1 (R133). -/
def State.clearCauses (s : State) (value : Word) : State :=
  { s with cmdOverrun := s.cmdOverrun && !value.getLsbD 2,
           portChange := s.portChange && !value.getLsbD 3 }

/-- A write to ATTN_ENABLE replaces the four enables (R134). -/
def State.writeEnables (s : State) (value : Word) : State := { s with attnEnable := bits value 0 4 }

/-- A write to RECALL_LIMIT: the low twelve bits, or 1 when they are 0 (R136). -/
def State.writeRecallLimit (s : State) (value : Word) : State :=
  { s with recallLimit := if bits value 0 12 = 0 then 1 else bits value 0 12 }

/-- A write to SCRUB_INTERVAL: the low eight bits (R136). -/
def State.writeScrubInterval (s : State) (value : Word) : State :=
  { s with scrubInterval := bits value 0 8 }

/-- A write to FAULT_CLEAR clears each bank written with 1 (R172). -/
def State.clearBanks (s : State) (value : Word) : State :=
  { s with
    storageBank := if value.getLsbD 0 then StorageBank.initial else s.storageBank
    recallBank := if value.getLsbD 1 then RecallBank.initial else s.recallBank
    linkBank := if value.getLsbD 2 then LinkBank.initial else s.linkBank }

/-! ## The commands -/

/-- CMD_WORD_WRITE (R127). -/
def execCmdWordWrite (value : Word) (s : State) : Host.Outcome State Fault Refusal :=
  .next (s.whenReleased fun s => s.stage value)

/-- CMD_POST: any value posts (R126, R128). -/
def execCmdPost (_value : Word) (s : State) : Host.Outcome State Fault Refusal :=
  .next (s.whenReleased State.postCommand)

/-- CPL_WORD_READ; while RESET_N is low a read returns 0 (R126, R130). -/
def execCplWordRead (s : State) : Host.Outcome State Fault Refusal :=
  .next (if s.resetHeld then { s with readData := 0 } else s.readCompletion)

/-- CPL_POP: any value pops (R126, R131). -/
def execCplPop (_value : Word) (s : State) : Host.Outcome State Fault Refusal :=
  .next (s.whenReleased State.popCompletion)

/-- ATTN_CAUSE_WRITE (R133). -/
def execAttnCauseWrite (value : Word) (s : State) : Host.Outcome State Fault Refusal :=
  .next (s.whenReleased fun s => s.clearCauses value)

/-- ATTN_ENABLE_WRITE (R134). -/
def execAttnEnableWrite (value : Word) (s : State) : Host.Outcome State Fault Refusal :=
  .next (s.whenReleased fun s => s.writeEnables value)

/-- RECALL_LIMIT_WRITE (R136). -/
def execRecallLimitWrite (value : Word) (s : State) : Host.Outcome State Fault Refusal :=
  .next (s.whenReleased fun s => s.writeRecallLimit value)

/-- SCRUB_INTERVAL_WRITE (R136). -/
def execScrubIntervalWrite (value : Word) (s : State) : Host.Outcome State Fault Refusal :=
  .next (s.whenReleased fun s => s.writeScrubInterval value)

/-- FAULT_CLEAR (R172). -/
def execFaultClear (value : Word) (s : State) : Host.Outcome State Fault Refusal :=
  .next (s.whenReleased fun s => s.clearBanks value)

/-- A write to the register at a word offset; a read-only register and an offset that names none ignore
it (R126, R180). -/
def State.writeRegister (s : State) (offset : BitVec 8) (value : Word) : State :=
  match offset.toNat with
  | 0x02 => if value.getLsbD 0 then s.softReset else s
  | 0x03 => s.clearCauses value
  | 0x04 => s.writeEnables value
  | 0x08 => s.stage value
  | 0x09 => s.postCommand
  | 0x0D => s.popCompletion
  | 0x10 => s.writeRecallLimit value
  | 0x11 => s.writeScrubInterval value
  | 0x24 => s.clearBanks value
  | _ => s

/-- REGISTER_WRITE_IGNORED: a write to an offset that ignores writes changes nothing (R126); an offset
that does not is the row of that register's write (log 21). -/
def execRegisterWriteIgnored (offset : BitVec 8) (value : Word) (s : State) :
    Host.Outcome State Fault Refusal :=
  .next (s.whenReleased fun s => s.writeRegister offset value)

end Sys2Proof.Machine
end

