-- ==== Sys2Proof/Machine/Dispatch.lean ====
section
/-! DEFINITION. The meaning of each command. -/

namespace Sys2Proof.Machine

/-- The effect of a command on everything but the queue. -/
def exec (i : Instr) (s : State) : Host.Outcome State Fault Refusal :=
  match i with
  | .resetNAssert => Sys2Proof.Machine.execResetNAssert s
  | .resetNRelease => Sys2Proof.Machine.execResetNRelease s
  | .initWalkEnd => Sys2Proof.Machine.execInitWalkEnd s
  | .softReset value => Sys2Proof.Machine.execSoftReset value s
  | .timebaseTick => Sys2Proof.Machine.execTimebaseTick s
  | .storedError w bit => Sys2Proof.Machine.execStoredError w bit s
  | .readyReceived p frame => Sys2Proof.Machine.execReadyReceived p frame s
  | .creditReceived p frame => Sys2Proof.Machine.execCreditReceived p frame s
  | .reinitReceived p frame => Sys2Proof.Machine.execReinitReceived p frame s
  | .agentMessageArrival p frame => Sys2Proof.Machine.execAgentMessageArrival p frame s
  | .hello p => Sys2Proof.Machine.execHello p s
  | .goodbye p => Sys2Proof.Machine.execGoodbye p s
  | .release p => Sys2Proof.Machine.execRelease p s
  | .recallAck p => Sys2Proof.Machine.execRecallAck p s
  | .lookup => Sys2Proof.Machine.execLookup s
  | .replay => Sys2Proof.Machine.execReplay s
  | .readyDeparture p => Sys2Proof.Machine.execReadyDeparture p s
  | .reinitDeparture p => Sys2Proof.Machine.execReinitDeparture p s
  | .creditDeparture p => Sys2Proof.Machine.execCreditDeparture p s
  | .outboundDeparture p => Sys2Proof.Machine.execOutboundDeparture p s
  | .refill p => Sys2Proof.Machine.execRefill p s
  | .recallReminder k => Sys2Proof.Machine.execRecallReminder k s
  | .recallTimeout k => Sys2Proof.Machine.execRecallTimeout k s
  | .scrubRead => Sys2Proof.Machine.execScrubRead s
  | .purgeVisit => Sys2Proof.Machine.execPurgeVisit s
  | .badCommand => Sys2Proof.Machine.execBadCommand s
  | .openContext => Sys2Proof.Machine.execOpenContext s
  | .closeContext => Sys2Proof.Machine.execCloseContext s
  | .join => Sys2Proof.Machine.execJoin s
  | .leave => Sys2Proof.Machine.execLeave s
  | .addWindow => Sys2Proof.Machine.execAddWindow s
  | .modifyWindow => Sys2Proof.Machine.execModifyWindow s
  | .retireWindow => Sys2Proof.Machine.execRetireWindow s
  | .fenceAgent => Sys2Proof.Machine.execFenceAgent s
  | .unfenceAgent => Sys2Proof.Machine.execUnfenceAgent s
  | .queryWindow => Sys2Proof.Machine.execQueryWindow s
  | .queryAgent => Sys2Proof.Machine.execQueryAgent s
  | .queryContext => Sys2Proof.Machine.execQueryContext s
  | .portEnable => Sys2Proof.Machine.execPortEnable s
  | .portDisable => Sys2Proof.Machine.execPortDisable s
  | .portReset => Sys2Proof.Machine.execPortReset s
  | .cmdWordWrite value => Sys2Proof.Machine.execCmdWordWrite value s
  | .cmdPost value => Sys2Proof.Machine.execCmdPost value s
  | .cplWordRead => Sys2Proof.Machine.execCplWordRead s
  | .cplPop value => Sys2Proof.Machine.execCplPop value s
  | .attnCauseWrite value => Sys2Proof.Machine.execAttnCauseWrite value s
  | .attnEnableWrite value => Sys2Proof.Machine.execAttnEnableWrite value s
  | .recallLimitWrite value => Sys2Proof.Machine.execRecallLimitWrite value s
  | .scrubIntervalWrite value => Sys2Proof.Machine.execScrubIntervalWrite value s
  | .faultClear value => Sys2Proof.Machine.execFaultClear value s
  | .registerWriteIgnored offset value => Sys2Proof.Machine.execRegisterWriteIgnored offset value s

end Sys2Proof.Machine
end

