-- ==== Sys2Proof/Safety.lean ====
section
/-! DEFINITION. The conditions under which claims are taken, and the invariants of the part that the
statements are about. -/

namespace Sys2Proof.Machine

/-! ## Conditions -/

/-- RESET_N is high and no INIT walk is in progress: claims are taken. -/
abbrev Serving (s : State) : Prop := s.resetHeld = false ∧ s.init = false

/-- The command engine takes `r`, with `rest` behind it (R140). -/
abbrev CanTake (s : State) (r : CmdRecord) (rest : List CmdRecord) : Prop :=
  Serving s ∧ s.slotWait = false ∧ s.HasReservation ∧ s.cmdQueue = r :: rest

/-- Nothing is left over from a claim before: no ACTIVE slot with an empty pending set (R91), no purge
with nothing held (R36), no fence wait on a FENCED agent (R152), and no head waiting while a slot is
FREE (R141). -/
abbrev Settled (s : State) : Prop :=
  (∀ k, ¬ s.Emptied k) ∧
  (∀ a, (s.agent a).state = .purging → (s.agent a).held ≠ 0) ∧
  (∀ f ∈ s.fenceWait, (s.agent f.agent).state ≠ .fenced) ∧
  (s.slotWait = true → s.freeSlot = none)

/-- No slot has an event due. -/
abbrev NothingDue (s : State) : Prop := ∀ k, s.dueOf k = .nothing

/-- Agent `a` is in no pending set and has no pool entry in use: a purge start finds nothing to take it
out of (R101, steps 2 and 3). -/
abbrev Unencumbered (s : State) (a : AgentId) : Prop :=
  (∀ k, (s.slot k).state = .active → hasAgent (s.slot k).pending a = false) ∧
  (∀ e, (s.entry e).state ≠ .free → (s.entry e).request.agent ≠ a)

/-- The grant part of `w` is in the state `flipped`, and the window is not poisoned, so that a read is
made of it (R164). -/
abbrev Readable (s : State) (w : WindowId) (flipped : List CodeBit) : Prop :=
  ((s.window w).state = .free ∨ (s.window w).poisoned = false) ∧ (s.word w).flipped = flipped

/-- A MODIFY_WINDOW, RETIRE_WINDOW, CLOSE_CONTEXT or LEAVE in `r` passes validation and finds holders, so
that it needs a change slot for the change named, with the values of a MODIFY (R76, R145, R147, R149,
R150). -/
def NeedsSlot (s : State) (r : CmdRecord) (x : ChangeSubject) (v : NewValues) : Prop :=
  match x with
  | .modify w =>
    let y := s.window w
    recordKind r = some .modifyWindow ∧ operand2 4096 r = some w ∧ valueOperands r = some v ∧
    InBounds y.localBase v ∧ y.state = .live ∧ (s.context y.context).state ≠ .closing ∧
    versionOperand r = y.version ∧ y.poisoned = false ∧
    (v.length = y.length ∨
      s.overlaps y.context (some w) y.localBase.toNat v.length.toNat = false) ∧ y.holders ≠ 0
  | .retire w =>
    let y := s.window w
    recordKind r = some .retireWindow ∧ operand2 4096 r = some w ∧ y.state = .live ∧
    (s.context y.context).state ≠ .closing ∧ y.holders ≠ 0
  | .close c =>
    recordKind r = some .closeContext ∧ operand2 256 r = some c ∧ (s.context c).state = .opened ∧
    (∀ w ∈ s.windowList c, (s.window w).state ≠ .changing) ∧ (s.context c).leaving = 0 ∧
    ∃ w ∈ s.windowList c, (s.window w).holders ≠ 0
  | .leave c a =>
    recordKind r = some .leave ∧ operand2 256 r = some c ∧ operand3 32 r = some a ∧
    (s.context c).state = .opened ∧ hasAgent (s.context c).members a = true ∧
    hasAgent (s.context c).leaving a = false ∧
    ∃ w ∈ s.windowList c, hasAgent (s.window w).holders a = true

/-- The length, rights or class of an ADD_WINDOW or MODIFY_WINDOW is out of range, or its range of pages
from `base`, or that of its global pages, ends outside the page space (R2, R142, R178). -/
def ValuesFail (r : CmdRecord) (base : Nat) : Prop :=
  let length := (bits r.w4 0 25).toNat
  length = 0 ∨ 2 ^ 24 < length ∨ bits r.w2 16 3 = 0 ∨ bits r.w2 20 2 = 3 ∨ 2 ^ 36 < base + length ∨
  2 ^ 40 < (bits r.w6 0 8).toNat * 2 ^ 32 + r.w5.toNat + length

/-- The form step of validation refuses a record of the kind (R142, R178). -/
def FormFails (s : State) (r : CmdRecord) (kind : CommandKind) : Prop :=
  let operand := (bits r.w2 0 16).toNat
  match kind with
  | .openContext | .closeContext | .queryContext => 256 ≤ operand
  | .join | .leave => 256 ≤ operand ∨ 32 ≤ (bits r.w3 0 16).toNat
  | .addWindow =>
    256 ≤ operand ∨ ValuesFail r ((bits r.w4 28 4).toNat * 2 ^ 32 + r.w3.toNat)
  | .modifyWindow =>
    4096 ≤ operand ∨ ∃ w : WindowId, w.val = operand ∧ ValuesFail r (s.window w).localBase.toNat
  | .retireWindow | .queryWindow => 4096 ≤ operand
  | .fenceAgent | .unfenceAgent | .queryAgent => 32 ≤ operand
  | .portEnable | .portDisable | .portReset => 4 ≤ operand

/-- The command that takes a record of a kind (R140). -/
def takeOf (kind : CommandKind) : Instr :=
  match kind with
  | .openContext => .openContext
  | .closeContext => .closeContext
  | .join => .join
  | .leave => .leave
  | .addWindow => .addWindow
  | .modifyWindow => .modifyWindow
  | .retireWindow => .retireWindow
  | .fenceAgent => .fenceAgent
  | .unfenceAgent => .unfenceAgent
  | .queryWindow => .queryWindow
  | .queryAgent => .queryAgent
  | .queryContext => .queryContext
  | .portEnable => .portEnable
  | .portDisable => .portDisable
  | .portReset => .portReset

/-- A port's record right after its entry into REINIT, with the destination given (R113). -/
def reinitRecord (d : Destination) : Port := ⟨.reinit, d, false, false, [], [], 0, 0⟩

/-! ## What the statements compare with -/

/-- `s` with `rest` as the command queue and one more completion record: that of `r`, with a status and a
result. -/
def State.answered (s : State) (rest : List CmdRecord) (r : CmdRecord) (status : Status)
    (result : Result) : State :=
  { s with
    cmdQueue := rest
    completions := s.completions ++ [⟨recordCode r, status, recordTag r, result⟩] }

/-- `s` with `rest` as `p`'s inbound queue and the place of its former head owed back (R117). -/
def State.tookFrom (s : State) (p : PortId) (rest : List InMsg) : State :=
  s.setPort p { s.port p with inbound := rest, returnedOwed := (s.port p).returnedOwed + 1 }

/-- `s` with `m` at the tail of `p`'s outbound queue. -/
def State.sent (s : State) (p : PortId) (m : OutMsg) : State :=
  s.setPort p { s.port p with outbound := (s.port p).outbound ++ [m] }

/-- A port record with as many of the messages `l` placed, in order, as its outbound queue has free
places (R122). -/
def Port.loaded (r : Port) (l : List OutMsg) : Port :=
  { r with outbound := r.outbound ++ l.take (32 - r.outbound.length) }

/-- The FENCEs that port `p`'s entry into UP places: those of the agents bound to it that are FENCED or
PURGING toward FENCED, in ascending number (R40). -/
def State.fencesOn (s : State) (p : PortId) : List OutMsg :=
  (allAgents.filter fun a => decide ((s.agent a).port = some p ∧
    ((s.agent a).state = .fenced ∨
      (s.agent a).state = .purging ∧ (s.agent a).target = some .fenced))).map OutMsg.fence

/-- The RECALLs that a reminder of slot `k` places on port `p` (R87). -/
def State.remindersOn (s : State) (k : SlotId) (p : PortId) : List OutMsg :=
  ((agentsOf ((s.slot k).pending &&& ~~~(s.slot k).unsent)).filter
    fun a => (s.agent a).port = some p).map fun a => s.recallMessage k a true

/-- The first RECALLs of slot `k` to its pending agents bound to port `p`, in ascending number (R80). -/
def State.recallsOn (s : State) (k : SlotId) (p : PortId) : List OutMsg :=
  ((agentsOf (s.slot k).pending).filter fun a => (s.agent a).port = some p).map fun a =>
    s.recallMessage k a false

/-- How many agents of a set, bound to port `p`, come before `a`. -/
def State.boundBefore (s : State) (x : AgentSet) (p : PortId) (a : AgentId) : Nat :=
  (agentsOf x).countP fun b => decide (b < a ∧ (s.agent b).port = some p)

/-- How many windows of the context's list agent `a` holds. -/
def State.holdingsIn (s : State) (c : ContextId) (a : AgentId) : Nat :=
  (List.finRange 4096).countP fun w => decide (w ∈ s.windowList c ∧ hasAgent (s.window w).holders a)

/-- A MODIFY or RETIRE of window `w` is in flight, and agent `a` is pending in it. -/
abbrev State.AwaitedAt (s : State) (a : AgentId) (w : WindowId) : Prop :=
  ∃ k, (s.slot k).state = .active ∧ hasAgent (s.slot k).pending a = true ∧
    subjectWindow (s.slot k).subject = some w

/-- How many windows agent `a` holds whose MODIFY or RETIRE in flight it is pending in. -/
def State.awaitedHoldings (s : State) (a : AgentId) : Nat :=
  (List.finRange 4096).countP fun w =>
    decide (hasAgent (s.window w).holders a = true ∧ s.AwaitedAt a w)

/-- A LEAVE that completes takes agent `a` out of window `w`: its slot's pending set is empty and `w` is in
its context's list (R95). -/
abbrev State.LeavesWindow (s : State) (a : AgentId) (w : WindowId) : Prop :=
  ∃ k c, s.Emptied k ∧ (s.slot k).subject = .leave c a ∧ w ∈ s.windowList c

/-- `u` with the changes in the slots listed completed one after the other, and their completion records in
that order (R91). -/
def State.completedAll (u : State) : List SlotId → State × List Completion
  | [] => (u, [])
  | k :: l =>
    let x := u.completeSlot k
    let y := x.1.completedAll l
    (y.1, x.2 :: y.2)

/-- `u`, in which PURGING agent `a` holds nothing any more, with its purge ended: `a` takes its target, the
owed WELCOME is placed or stays owed, and `a` leaves the purge set (R36). -/
def State.purgeEnded (u : State) (a : AgentId) : State :=
  let r := u.agent a
  let left : State := { u with purgeSet := dropAgent u.purgeSet a }
  match r.target with
  | some .absent =>
    left.setAgent a { r with state := .absent, port := none, target := none, welcomeOwed := false }
  | some .fenced => left.setAgent a { r with state := .fenced, target := none }
  | some .active =>
    let owed := left.setAgent a { r with state := .active, target := none }
    match r.port with
    | some p =>
      if r.welcomeOwed ∧ u.HasRoom p then
        (left.setAgent a { r with state := .active, target := none, welcomeOwed := false }).sent p
          (.welcome a .accepted)
      else owed
    | none => owed
  | none => left

/-- `u` with the fence waits on FENCED agents completed, in the order of the list, after the records given
(R152). -/
def State.fencesEnded (u : State) (records : List Completion) : State :=
  let done := u.fenceWait.filter fun f => (u.agent f.agent).state = .fenced
  { u with
    fenceWait := u.fenceWait.filter fun f => (u.agent f.agent).state ≠ .fenced
    completions := u.completions ++ records ++ done.map fun f =>
      ⟨0x20, .done, f.tag, .fenced f.agent (u.agent f.agent).port⟩
    reservations := u.reservations - (records.length + done.length) }

/-- The PURGING agents that hold nothing, in ascending number. -/
def State.nothingHeld (u : State) : List AgentId :=
  allAgents.filter fun a => decide ((u.agent a).state = .purging ∧ (u.agent a).held = 0)

/-- `u` with every purge ended that holds nothing, in ascending agent number (R101 to R103; log 28), then the
records given and those of the fence waits posted (R36, R91, R152). -/
def State.purgesEnded (u : State) (records : List Completion) : State :=
  (u.nothingHeld.foldl State.purgeEnded u).fencesEnded records

/-- The messages that wait for a free place in port `p`'s outbound queue, in the order of R123: owed
WELCOMEs and FENCEs by agent, then unsent RECALLs by slot and agent. -/
def State.waitingOn (s : State) (p : PortId) : List OutMsg :=
  (allAgents.filterMap fun a =>
    if (s.agent a).port = some p then
      if (s.agent a).welcomeOwed ∧ (s.agent a).state = .active then some (.welcome a .accepted)
      else if (s.agent a).fenceOwed then some (.fence a) else none
    else none) ++
  allSlots.flatMap fun k =>
    if (s.slot k).state = .active then
      ((agentsOf (s.slot k).unsent).filter fun a => (s.agent a).port = some p).map fun a =>
        s.recallMessage k a false
    else []

/-- The violation that frame `f` is on a port whose record is `r` (R120); none when it is good. -/
def violationOf (r : Port) (f : Frame) : Option Violation :=
  match decodeFrame f with
  | .bad v => some v
  | .ready _ => if r.state = .up then some .outOfState else none
  | .credit n =>
    if 32 < r.partnerCredits + n then some .badField
    else if r.state = .training then some .outOfState else none
  | .reinit => none
  | .agent _ =>
    if r.state = .training then some .outOfState
    else if 16 ≤ r.inbound.length + r.returnedOwed then some .overrun else none

/-- The commands that act on the registers of the management port, on its completion reads or on the
reset and time of the part (the scrub timer among it); every other command leaves these as they are. -/
def actsOnRegisters (c : Instr) : Bool :=
  match c with
  | .resetNAssert | .resetNRelease | .initWalkEnd | .softReset _ | .timebaseTick => true
  | .scrubRead => true
  | .cmdWordWrite _ | .cmdPost _ | .cplWordRead | .cplPop _ => true
  | .attnCauseWrite _ | .attnEnableWrite _ | .recallLimitWrite _ | .scrubIntervalWrite _ => true
  | .faultClear _ | .registerWriteIgnored _ _ => true
  | _ => false

/-- The registers of the management port, the reset and the time of the part are the same in both. -/
def RegistersKept (s t : State) : Prop :=
  t.resetHeld = s.resetHeld ∧ t.init = s.init ∧ t.walkTicks = s.walkTicks ∧ t.staging = s.staging ∧
  t.readPosition = s.readPosition ∧ t.readData = s.readData ∧ t.cmdOverrun = s.cmdOverrun ∧
  t.attnEnable = s.attnEnable ∧ t.recallLimit = s.recallLimit ∧ t.scrubInterval = s.scrubInterval ∧
  t.scrubTimer = s.scrubTimer

/-! ## Invariants -/

/-- Every table is in the one canonical form, and every code word lists its changed bits in rising
order (log 19). -/
def TablesCanonical (s : State) : Prop :=
  TableWf Window.initial s.windows ∧ TableWf CodeWord.initial s.grants ∧ TableWf [] s.windowLists ∧
  TableWf Context.initial s.contexts ∧ TableWf Agent.initial s.agents ∧
  TableWf PoolEntry.initial s.pool ∧ TableWf [] s.parkOrders ∧ TableWf Slot.initial s.slots ∧
  TableWf Port.initial s.ports ∧ TableWf [] s.lanes ∧
  ∀ w, (s.word w).flipped.Pairwise (· < ·)

/-- A port record keeps its bounds: queues and credits within 16 and 32, both queues empty and no
returned credit owed outside UP, and no partner credit in DISABLED and REINIT (R110). -/
def PortBounded (r : Port) : Prop :=
  r.inbound.length + r.returnedOwed ≤ 16 ∧ r.outbound.length ≤ 32 ∧ r.partnerCredits ≤ 32 ∧
  (r.state ≠ .up → r.inbound = [] ∧ r.outbound = [] ∧ r.returnedOwed = 0) ∧
  (r.state = .disabled ∨ r.state = .reinit → r.partnerCredits = 0)

/-- Every port keeps its bounds (R110). -/
def PortsBounded (s : State) : Prop := ∀ p, PortBounded (s.port p)

/-- The number of ACTIVE change slots. -/
def State.activeSlots (s : State) : Nat := allSlots.countP fun k => (s.slot k).state = .active

/-- One reservation is held by each ACTIVE slot and by each entry of the fence wait list (R139), and
completion records and reservations together never exceed 16 (R140), nor reach 16 while a head waits
for a slot (R141). -/
def ReservationsKept (s : State) : Prop :=
  s.reservations = s.activeSlots + s.fenceWait.length ∧
  s.completions.length + s.reservations ≤ 16 ∧
  (s.slotWait = true → s.completions.length + s.reservations < 16)

/-- The number of windows whose holder set contains `a`. -/
def State.holdings (s : State) (a : AgentId) : Nat :=
  (List.finRange 4096).countP fun w => hasAgent (s.window w).holders a

/-- Each agent's held count equals the number of windows whose holder set contains it (R7). -/
def HeldCountsExact (s : State) : Prop := ∀ a, (s.agent a).held = s.holdings a

/-- Every unsent set is a subset of its pending set (R73), and every leaving set of its member set
(R24). -/
def SubsetsKept (s : State) : Prop :=
  (∀ k a, hasAgent (s.slot k).unsent a = true → hasAgent (s.slot k).pending a = true) ∧
  (∀ c a, hasAgent (s.context c).leaving a = true → hasAgent (s.context c).members a = true)

/-- A window is CHANGING exactly when it has a change slot, and that slot is ACTIVE with a MODIFY or RETIRE of
the window (R1, R75). -/
def ChangesNamed (s : State) : Prop :=
  ∀ w, ((s.window w).state = .changing ↔ (s.window w).slot ≠ none) ∧
    ∀ k, (s.window w).slot = some k →
      (s.slot k).state = .active ∧ subjectWindow (s.slot k).subject = some w

/-- During the INIT walk the directory and its engines are at their initial values, and nothing waits
(R23, R61, R97, R109). -/
def QuietInWalk (s : State) : Prop :=
  s.init = true →
    s.windows = [] ∧ s.windowLists = [] ∧ s.contexts = [] ∧ s.agents = [] ∧ s.slots = [] ∧
    s.pool = [] ∧ s.parkOrders = [] ∧ s.replayList = [] ∧ s.purgeSet = 0 ∧ s.fenceWait = [] ∧
    s.slotWait = false ∧ s.scrubAhead = false

/-- A FENCE is owed to a FENCED agent or one PURGING toward FENCED alone, and a WELCOME to an ACTIVE agent
or one PURGING toward ACTIVE alone (R31, R37, R38). -/
def OwedKept (s : State) : Prop :=
  ∀ a,
    ((s.agent a).fenceOwed = true → (s.agent a).state = .fenced ∨
      (s.agent a).state = .purging ∧ (s.agent a).target = some .fenced) ∧
    ((s.agent a).welcomeOwed = true → (s.agent a).state = .active ∨
      (s.agent a).state = .purging ∧ (s.agent a).target = some .active)

/-- The purge set is the set of PURGING agents (R99), exactly these have a purge target (R31), and what is
owed to an agent fits its state. -/
def PurgesTracked (s : State) : Prop :=
  QuietInWalk s ∧ OwedKept s ∧
  ∀ a, (hasAgent s.purgeSet a = true ↔ (s.agent a).state = .purging) ∧
    ((s.agent a).state = .purging ↔ (s.agent a).target.isSome = true)

/-- Every pool entry is FREE and on no list, or PARKED on its window's park order alone, or REPLAY and
on the replay list alone; each list holds an entry at most once (R63). -/
def PoolListed (s : State) : Prop :=
  s.replayList.Nodup ∧ (∀ w, (s.parkOrder w).Nodup) ∧
  (∀ e, e ∈ s.replayList ↔ (s.entry e).state = .replay) ∧
  (∀ e w, e ∈ s.parkOrder w ↔ (s.entry e).state = .parked ∧ (s.entry e).window = w)

/-- The management port's registers and queues keep their ranges (R127, R129, R130, R136, R166). -/
def RegistersInRange (s : State) : Prop :=
  s.staging.length ≤ 6 ∧ s.cmdQueue.length ≤ 16 ∧ s.readPosition ≤ 8 ∧ s.recallLimit ≠ 0 ∧
  s.scrubTimer ≤ 16319

/-- Whatever an ACTIVE slot has waited is within the largest limit, or its timeout is due (R86). -/
def WaitsBounded (s : State) : Prop :=
  QuietInWalk s ∧
  ∀ k, (s.slot k).state = .active →
    (s.slot k).elapsed ≤ 65520 ∧ ((s.slot k).elapsed = 65520 → (s.slot k).due = .timeout)

end Sys2Proof.Machine
end

