-- ==== Sys2Proof/WellFormed.lean ====
section
/-! DEFINITION. When a command's operands are those of its row: an arrival's frame spells the kind of
message the row names, and an ignored write goes to an offset that ignores writes. The machine runs
ill-formed commands too, by their words (logs 20, 21); `Instr.wf` says which are the row's own. -/

namespace Sys2Proof

/-- The kind code of a frame, bits 31:24 of its header (R176); 0 for a frame with no word. -/
def frameKind (f : Frame) : BitVec 8 := (f.headD 0).extractLsb' 24 8

/-- The offsets of the registers that act on a write (R180). -/
def writableOffsets : List (BitVec 8) :=
  [0x02, 0x03, 0x04, 0x08, 0x09, 0x0D, 0x10, 0x11, 0x24]

/-- The operands fit the row (R120, R126). -/
def Instr.wf : Instr → Bool
  | .readyReceived _ f => frameKind f == 0x01
  | .creditReceived _ f => frameKind f == 0x02
  | .reinitReceived _ f => frameKind f == 0x03
  | .agentMessageArrival _ f => !([0x01, 0x02, 0x03].contains (frameKind f))
  | .registerWriteIgnored off _ => !(writableOffsets.contains off)
  | .resetNAssert => true
  | .resetNRelease => true
  | .initWalkEnd => true
  | .softReset _ => true
  | .timebaseTick => true
  | .storedError _ _ => true
  | .hello _ => true
  | .goodbye _ => true
  | .release _ => true
  | .recallAck _ => true
  | .lookup => true
  | .replay => true
  | .readyDeparture _ => true
  | .reinitDeparture _ => true
  | .creditDeparture _ => true
  | .outboundDeparture _ => true
  | .refill _ => true
  | .recallReminder _ => true
  | .recallTimeout _ => true
  | .scrubRead => true
  | .purgeVisit => true
  | .badCommand => true
  | .openContext => true
  | .closeContext => true
  | .join => true
  | .leave => true
  | .addWindow => true
  | .modifyWindow => true
  | .retireWindow => true
  | .fenceAgent => true
  | .unfenceAgent => true
  | .queryWindow => true
  | .queryAgent => true
  | .queryContext => true
  | .portEnable => true
  | .portDisable => true
  | .portReset => true
  | .cmdWordWrite _ => true
  | .cmdPost _ => true
  | .cplWordRead => true
  | .cplPop _ => true
  | .attnCauseWrite _ => true
  | .attnEnableWrite _ => true
  | .recallLimitWrite _ => true
  | .scrubIntervalWrite _ => true
  | .faultClear _ => true

end Sys2Proof
end

