-- ==== Sys2Proof/Certificates/Slice0/Obligations.lean ====
section
/-! DEFINITION. The statements for the provers. Each next state is written as an update of the state
before it, so that what a statement does not name is unchanged. -/

open Sys2Proof Sys2Proof.Machine

/-! ## Steps -/

/-- A step of a state with `c` at the front of its queue is `exec c` on it with the queue's rest, and a
step on an empty queue idles (the model's choice, log 2). -/
def Obligations.StepRunsTheFrontCommand : Prop :=
  (∀ (c : Instr) (rest : List Instr) (s : State),
    step { s with pending := c :: rest } = exec c { s with pending := rest }) ∧
  ∀ s : State, s.pending = [] → step s = .next s

/-- Every command answers a next state and leaves the queue of commands as it was (no command stops the
part: log 26); every command but those of the register window, the resets, the walk's end, the tick and
the scrub read (log 7) leaves the registers of the management port, the reset and the time of the part as
they were. -/
def Obligations.CommandsKeepQueueAndRegisters : Prop :=
  ∀ (c : Instr) (s : State), ∃ t, exec c s = .next t ∧ t.pending = s.pending ∧
    (actsOnRegisters c = false → RegistersKept s t)

/-! ## Resets and the INIT walk -/

/-- What device reset leaves in each record and register. -/
def Obligations.DeviceResetValues : Prop :=
  (∀ w, State.reset.window w = ⟨.free, 0, 0, 0, 0, 0, none, false⟩) ∧
  (∀ w, State.reset.word w = ⟨⟨0, ⟨false, false, false⟩, .strict⟩, []⟩) ∧
  (∀ c, State.reset.windowList c = [] ∧ State.reset.context c = ⟨.free, 0, 0, 0, none⟩) ∧
  (∀ a, State.reset.agent a = ⟨.absent, none, none, false, false, 0⟩) ∧
  (∀ e, State.reset.entry e = ⟨.free, ⟨0, 0, 0, 0, .read⟩, 0, 0⟩) ∧
  (∀ w, State.reset.parkOrder w = []) ∧ State.reset.replayList = [] ∧
  (∀ k, (State.reset.slot k).state = .free ∧ (State.reset.slot k).pending = 0) ∧
  State.reset.serial = 0 ∧ State.reset.lastPort = 3 ∧
  State.reset.purgeSet = 0 ∧ State.reset.walkPosition = 0 ∧
  (∀ p, State.reset.port p = ⟨.disabled, .training, false, false, [], [], 0, 0⟩) ∧
  State.reset.cmdQueue = [] ∧ State.reset.completions = [] ∧ State.reset.fenceWait = [] ∧
  State.reset.staging = [] ∧ State.reset.readPosition = 0 ∧
  State.reset.scrubPosition = 0 ∧ State.reset.scrubTimer = 0 ∧
  readRegister State.reset 0x00 = 0x5A732041 ∧ readRegister State.reset 0x01 = 1 ∧
  readRegister State.reset 0x03 = 0 ∧ readRegister State.reset 0x04 = 0 ∧
  readRegister State.reset 0x05 = 0 ∧ readRegister State.reset 0x0A = 16 ∧
  readRegister State.reset 0x0E = 0 ∧ readRegister State.reset 0x10 = 250 ∧
  readRegister State.reset 0x11 = 16 ∧ readRegister State.reset 0x18 = 0 ∧
  readRegister State.reset 0x1C = 0 ∧ readRegister State.reset 0x20 = 0 ∧
  attnAsserted State.reset = false

/-- RESET_N. Its assertion holds the part in reset. While it is held, every command but its release and a
stored error leaves the state as it is (a read of CPL_WORD returns 0), every register reads 0 and ATTN_N
is released. Its release leaves every block at its device reset value, with the INIT walk begun. -/
def Obligations.ResetPinHoldsAndReleases : Prop :=
  (∀ s : State, exec .resetNAssert s = .next { s with resetHeld := true }) ∧
  ∀ s : State, s.resetHeld = true →
    exec .resetNRelease s = .next { State.reset with pending := s.pending } ∧
    (∀ c : Instr, c ≠ .resetNRelease → (∀ w b, c ≠ .storedError w b) → c ≠ .cplWordRead →
      exec c s = .next s) ∧
    exec .cplWordRead s = .next { s with readData := 0 } ∧
    (∀ offset, readRegister s offset = 0) ∧ attnAsserted s = false

/-- INIT_WALK_END: the tables are at the walk's values and STATUS.INIT clears. A tick in the walk holds the
scrub timer at 0; the tick after the walk's 200th finds the walk ended (the model's choice within R23's
bound, log 5). -/
def Obligations.WalkEndsWithInitialTables : Prop :=
  (∀ s : State, s.resetHeld = false → s.init = true →
     exec .initWalkEnd s = .next { s with
       windows := [], grants := [], windowLists := [], contexts := [], agents := [],
       init := false, walkTicks := 0 }) ∧
  ∀ s : State, s.resetHeld = false → s.init = true → (∀ k, (s.slot k).state = .free) →
    (s.walkTicks < 200 →
      exec .timebaseTick s = .next
        { s with scrubTimer := 0, scrubAhead := false, walkTicks := s.walkTicks + 1 }) ∧
    (200 ≤ s.walkTicks → ∃ t : State, exec .timebaseTick s = .next t ∧ t.init = false)

/-- A soft reset: the directory, the queues and the engines are cleared, each TRAINING or UP port enters
REINIT toward TRAINING, the walk begins, and the fault banks, RECALL_LIMIT, SCRUB_INTERVAL and
ATTN_ENABLE are kept. -/
def Obligations.SoftResetClearsTheDirectory : Prop :=
  ∀ (s : State) (value : Word), s.resetHeld = false → value.getLsbD 0 = true →
    ∃ t : State, exec (.softReset value) s = .next t ∧
      t = { State.reset with
        pending := s.pending, ports := t.ports, portChange := t.portChange, lanes := s.lanes,
        readData := s.readData, attnEnable := s.attnEnable, recallLimit := s.recallLimit,
        scrubInterval := s.scrubInterval, storageBank := s.storageBank,
        recallBank := s.recallBank, linkBank := s.linkBank } ∧
      (∀ p, t.port p =
        if (s.port p).state = .training ∨ (s.port p).state = .up then reinitRecord .training
        else s.port p) ∧
      (t.portChange = true ↔ ∃ p, (s.port p).state = .training ∨ (s.port p).state = .up)

/-- A write to CONTROL with 0 in SOFT_RESET changes nothing (R126), and while the INIT walk is in progress
no claim of the blocks that reach the tables is taken (an untaken claim leaves the state as it was: log
1). -/
def Obligations.WalkHoldsBackTheClaims : Prop :=
  (∀ (s : State) (value : Word), value.getLsbD 0 = false → exec (.softReset value) s = .next s) ∧
  ∀ s : State, s.init = true →
    (∀ p, exec (.hello p) s = .next s ∧ exec (.goodbye p) s = .next s ∧
      exec (.release p) s = .next s ∧ exec (.recallAck p) s = .next s ∧
      exec (.readyDeparture p) s = .next s ∧ exec (.refill p) s = .next s) ∧
    (∀ k, exec (.recallReminder k) s = .next s ∧ exec (.recallTimeout k) s = .next s) ∧
    (∀ c ∈ [Instr.lookup, .replay, .scrubRead, .purgeVisit, .badCommand, .openContext, .closeContext,
        .join, .leave, .addWindow, .modifyWindow, .retireWindow, .fenceAgent, .unfenceAgent,
        .queryWindow, .queryAgent, .queryContext, .portEnable, .portDisable, .portReset],
      exec c s = .next s)

/-! ## Time -/

/-- A tick with no slot's event outstanding: each ACTIVE slot's elapsed time rises by one and is compared
with the stored limit, and the scrub timer rises by one or, when it then reaches the interval, the tick
makes the scrub read that SCRUB_READ makes, in its own claim (that a slot's due event is a claim of its
own, and that the scrubber may have taken its event of the tick ahead, are the model's choices, logs 6
and 7). A tick that finds slots' events outstanding takes each first, as its own command does, in ascending
slot number, and is then such a tick (the model's choice, log 6). -/
def Obligations.TickCountsEachTimer : Prop :=
  (∀ s : State, Serving s → ∃ before : Nat → State,
    before 0 = s ∧
    (∀ k : SlotId, let u := before k.val
      (u.dueOf k = .reminder → exec (.recallReminder k) u = .next (before (k.val + 1))) ∧
      (u.dueOf k = .timeout → exec (.recallTimeout k) u = .next (before (k.val + 1))) ∧
      (u.dueOf k = .nothing → before (k.val + 1) = u)) ∧
    Serving (before 8) ∧ NothingDue (before 8) ∧
    exec .timebaseTick s = exec .timebaseTick (before 8)) ∧
  ∀ s : State, Serving s → NothingDue s →
    ∃ t : State, exec .timebaseTick s = .next t ∧
      (∀ k, (s.slot k).state ≠ .active → t.slot k = s.slot k) ∧
      (∀ k, (s.slot k).state = .active → ∃ due, t.slot k =
          { s.slot k with elapsed := (s.slot k).elapsed + 1, due := due } ∧
        (due = .timeout ↔ s.recallLimit.toNat * 16 ≤ (s.slot k).elapsed + 1) ∧
        (due = .reminder ↔ (s.slot k).elapsed + 1 < s.recallLimit.toNat * 16 ∧
          2 ≤ s.recallLimit.toNat ∧ (s.slot k).reminderSent = false ∧
          s.recallLimit.toNat / 2 * 16 ≤ (s.slot k).elapsed + 1)) ∧
      (s.scrubInterval = 0 → t = { s with slots := t.slots, scrubTimer := 0, scrubAhead := false }) ∧
      (s.scrubInterval ≠ 0 → s.scrubAhead = true →
        t = { s with slots := t.slots, scrubAhead := false }) ∧
      (s.scrubInterval ≠ 0 → s.scrubAhead = false →
        s.scrubTimer + 1 < s.scrubInterval.toNat * 64 →
        t = { s with slots := t.slots, scrubTimer := s.scrubTimer + 1 }) ∧
      (s.scrubInterval ≠ 0 → s.scrubAhead = false →
        s.scrubInterval.toNat * 64 ≤ s.scrubTimer + 1 →
        ∃ u : State, exec .scrubRead s = .next u ∧
          t = { u with slots := t.slots, scrubAhead := false })

/-- A due reminder sets the slot's flag and places, on each UP port while it has free places, a RECALL
marked as a reminder for each pending agent not in the unsent set, in ascending agent number. What the RECALL
carries, FillStartsTheChange states. -/
def Obligations.ReminderGoesToSentAgents : Prop :=
  ∀ (s : State) (k : SlotId), Serving s → s.dueOf k = .reminder →
    ∃ t : State, exec (.recallReminder k) s = .next t ∧
      t = { s with slots := t.slots, ports := t.ports } ∧
      (∀ j, t.slot j = if j = k then { s.slot k with reminderSent := true, due := .nothing }
        else s.slot j) ∧
      ∀ p, t.port p =
        if (s.port p).state = .up then (s.port p).loaded (s.remindersOn k p) else s.port p

/-- A due timeout, in its steps (R88). The pending agents go to the fenced set, leave the window's holder
set for WINDOW scope, each with its held count, and the RECALL bank records; then each of them is fenced, in
ascending number, with its FENCE placed on its UP port while it has free places and owed otherwise; then the
change completes with DONE_FENCED. Where it completes alone, the claim leaves its completion (see
CompletionByKind) with the purges ended that it leaves with nothing held. A head that waits for a slot is
examined last, when all this is done (R141). -/
def Obligations.TimeoutFencesTheLate : Prop :=
  ∀ (s : State) (k : SlotId), Serving s → s.dueOf k = .timeout → (s.slot k).pending ≠ 0 →
    let r := s.slot k
    let late := r.pending
    ∃ u0 : State,
      u0 = { s with
        slots := u0.slots, windows := u0.windows, agents := u0.agents,
        recallBank := recordRecall s.recallBank r.serial r.subject (r.fenced ||| late) } ∧
      (∀ j, u0.slot j = if j = k then
        { r with fenced := r.fenced ||| late, pending := 0, unsent := 0, due := .nothing }
        else s.slot j) ∧
      (subjectWindow r.subject = none → u0.windows = s.windows ∧ u0.agents = s.agents) ∧
      (∀ w, subjectWindow r.subject = some w →
        (∀ v, u0.window v = if v = w then
          { s.window w with holders := (s.window w).holders &&& ~~~late } else s.window v) ∧
        ∀ a, u0.agent a = if hasAgent late a = true ∧ hasAgent (s.window w).holders a = true then
          { s.agent a with held := (s.agent a).held - 1 } else s.agent a) ∧
      let u := (agentsOf late).foldl (fun u a => u.fence a) u0
      ((∀ a, hasAgent late a = true → (s.agent a).state = .active) →
        (∀ p, u.port p = if (s.port p).state = .up then (s.port p).loaded
          (((agentsOf late).filter fun a => (s.agent a).port = some p).map OutMsg.fence)
          else s.port p) ∧
        (∀ a, hasAgent late a = true →
          u.agent a = { s.agent a with
            state := .purging, target := some .fenced, welcomeOwed := false,
            fenceOwed := (u.agent a).fenceOwed, held := (u.agent a).held } ∧
          ((u.agent a).fenceOwed = true ↔ (s.agent a).fenceOwed = true ∨
            ∃ p, (s.agent a).port = some p ∧ (s.port p).state = .up ∧
              32 ≤ (s.port p).outbound.length + s.boundBefore late p a) ∧
          hasAgent u.purgeSet a = true ∧
          (∀ e, (u.entry e).state ≠ .free → (u.entry e).request.agent ≠ a) ∧
          ∀ j, (u.slot j).state = .active → hasAgent (u.slot j).pending a = false)) ∧
      let t := u.settle none false
      exec (.recallTimeout k) s = .next (t.reconsider none) ∧
      (s.slotWait = false → t.reconsider none = t) ∧
      t.slotWait = s.slotWait ∧ t.cmdQueue = s.cmdQueue ∧
      (t.slot k).state = .free ∧
      (∀ a, hasAgent late a = true →
        (t.agent a).state = .fenced ∨
          (t.agent a).state = .purging ∧ (t.agent a).target = some .fenced) ∧
      t.recallBank = recordRecall s.recallBank r.serial r.subject (r.fenced ||| late) ∧
      (∃ c ∈ t.completions, c.tag = r.tag ∧ c.status = .doneFenced ∧
        c.kind = commandCode (changeCommand r.subject)) ∧
      ((∀ j, j ≠ k → ¬ u.Emptied j) → (∀ j, ¬ (u.completeSlot k).1.Emptied j) →
        t = (u.completeSlot k).1.purgesEnded [(u.completeSlot k).2])

/-- SCRUB_READ, the scrubber's event of a tick that reaches the interval (taken ahead of the slots: log 7),
by the record and what the read finds: the position advances and the timer is 0; Clean changes nothing
more, Single is written back, Double poisons a window or rewrites a FREE record, and a poisoned window is
not read. While the interval is not reached, or is 0, or the event of the next tick has been taken, no
read is made. A stored error changes one bit of one code word and no other state (in the form of log 9). -/
def Obligations.ScrubReadByOutcome : Prop :=
  (∀ s : State, Serving s → s.scrubAhead = false → s.scrubInterval ≠ 0 →
     s.scrubInterval.toNat * 64 ≤ s.scrubTimer + 1 →
     let w := s.scrubPosition
     let moved : State := { s with scrubPosition := w + 1, scrubTimer := 0, scrubAhead := true }
     let free := decide ((s.window w).state = .free)
     (Readable s w [] → exec .scrubRead s = .next moved) ∧
     (∀ b, Readable s w [b] → exec .scrubRead s = .next
       { moved.setWord w ⟨(s.word w).written, []⟩ with
         storageBank := recordStorage s.storageBank .corrected w .scrub free }) ∧
     (∀ b c, Readable s w [b, c] → (s.window w).state ≠ .free → exec .scrubRead s = .next
       { moved.setWindow w { s.window w with poisoned := true } with
         storageBank := recordStorage s.storageBank .uncorrected w .scrub false }) ∧
     (∀ b c, Readable s w [b, c] → (s.window w).state = .free → exec .scrubRead s = .next
       { moved.setWord w ⟨GrantPart.zero, []⟩ with
         storageBank := recordStorage s.storageBank .uncorrected w .scrub true }) ∧
     ((s.window w).state ≠ .free → (s.window w).poisoned = true →
       exec .scrubRead s = .next moved)) ∧
  (∀ s : State, s.scrubAhead = true ∨ s.scrubInterval = 0 ∨
     s.scrubTimer + 1 < s.scrubInterval.toNat * 64 → exec .scrubRead s = .next s) ∧
  ∀ (s : State) (w : WindowId) (b : CodeBit),
    ∃ t : State, exec (.storedError w b) s = .next t ∧ t = { s with grants := t.grants } ∧
      (∀ v, v ≠ w → t.word v = s.word v) ∧ (t.word w).written = (s.word w).written ∧
      ((s.word w).flipped.Pairwise (· < ·) →
        ∀ c, c ∈ (t.word w).flipped ↔ (c ∈ (s.word w).flipped ↔ c ≠ b))

/-! ## Arrivals -/

/-- A READY in TRAINING sets partner ready and the partner credits, and with the part's READY already
sent the port is UP, with the FENCEs of its agents placed. -/
def Obligations.ReadyArrivesInTraining : Prop :=
  ∀ (s : State) (p : PortId) (f : Frame) (n : Nat), s.resetHeld = false →
    (s.port p).state = .training → decodeFrame f = .ready n →
    ((s.port p).readySent = false → exec (.readyReceived p f) s = .next
      (s.setPort p { s.port p with partnerReady := true, partnerCredits := n })) ∧
    ((s.port p).readySent = true → ∃ t : State, exec (.readyReceived p f) s = .next t ∧
      t = { s with ports := t.ports, portChange := true } ∧
      (∀ q, q ≠ p → t.port q = s.port q) ∧
      t.port p = ⟨.up, (s.port p).destination, true, true, [], s.fencesOn p, n, 0⟩)

/-- A CREDIT in UP adds its count when the sum does not exceed 32; a REINIT in TRAINING clears both flags
and the partner credits, and in UP it takes the port into REINIT toward TRAINING (with what
ReinitPurgesThePort says of its pool entries and agents) without a LINK entry. -/
def Obligations.CreditAndReinitArrive : Prop :=
  ∀ (s : State) (p : PortId) (f : Frame), s.resetHeld = false →
    (∀ n, (s.port p).state = .up → decodeFrame f = .credit n → (s.port p).partnerCredits + n ≤ 32 →
      exec (.creditReceived p f) s = .next
        (s.setPort p { s.port p with partnerCredits := (s.port p).partnerCredits + n })) ∧
    ((s.port p).state = .training → decodeFrame f = .reinit →
      exec (.reinitReceived p f) s = .next (s.setPort p
        { s.port p with partnerReady := false, partnerCredits := 0, readySent := false })) ∧
    ((s.port p).state = .up → decodeFrame f = .reinit →
      ∃ t : State, exec (.reinitReceived p f) s = .next t ∧ t = s.enterReinit p .training ∧
        t.port p = reinitRecord .training ∧ t.portChange = true ∧ t.linkBank = s.linkBank)

/-- An agent message in UP, with a credit left at the partner, joins the tail of the inbound queue, and
whatever arrives on a port in REINIT or DISABLED is discarded. -/
def Obligations.MessagesJoinOrAreDiscarded : Prop :=
  ∀ (s : State) (p : PortId) (f : Frame),
    (∀ m, s.resetHeld = false → (s.port p).state = .up → decodeFrame f = .agent m →
      (s.port p).inbound.length + (s.port p).returnedOwed < 16 →
      exec (.agentMessageArrival p f) s = .next
        (s.setPort p { s.port p with inbound := (s.port p).inbound ++ [m] })) ∧
    ((s.port p).state = .reinit ∨ (s.port p).state = .disabled →
      exec (.readyReceived p f) s = .next s ∧ exec (.creditReceived p f) s = .next s ∧
      exec (.reinitReceived p f) s = .next s ∧ exec (.agentMessageArrival p f) s = .next s)

/-- A violation in TRAINING or UP is recorded in the LINK bank and takes the port into REINIT toward
TRAINING (with what ReinitPurgesThePort says of its pool entries and agents) with PORT_CHANGE raised,
whichever of the four arrivals brings it (log 20). The violation that a frame is, or that it is none, is
spelled on its words, in the order of checks 1 to 6 (R120). The kind recorded rests on log 11 for a frame of
fewer than two words, and on log 12 for a CREDIT in TRAINING whose sum exceeds 32. -/
def Obligations.ViolationTakesThePortDown : Prop :=
  (∀ (s : State) (p : PortId) (f : Frame) (v : Violation), s.resetHeld = false →
    (s.port p).state = .training ∨ (s.port p).state = .up → violationOf (s.port p) f = some v →
    ∃ t : State, exec (.agentMessageArrival p f) s = .next t ∧
      exec (.readyReceived p f) s = .next t ∧ exec (.creditReceived p f) s = .next t ∧
      exec (.reinitReceived p f) s = .next t ∧
      t = State.enterReinit { s with linkBank := recordLink s.linkBank p v } p .training ∧
      t.port p = reinitRecord .training ∧ t.portChange = true ∧
      t.linkBank = (if s.linkBank.valid then { s.linkBank with overflow := true }
        else ⟨true, false, p, v⟩)) ∧
  (crc16 [] = 0xFFFF ∧ ∀ (ws : List Word) (w : Word), crc16 (ws ++ [w]) =
    (List.range 32).foldl (fun (r : BitVec 16) i => (r <<< 1) ^^^
      (if r.getLsbD 15 = w.getLsbD (31 - i) then (0 : BitVec 16) else 0x1021)) (crc16 ws)) ∧
  ∀ (r : Port) (f : Frame),
    let checked := ∃ ws check, f = ws ++ [check] ∧ ws ≠ [] ∧
      check.toNat % 2 ^ 16 = (crc16 ws).toNat
    let header := (f.headD 0).toNat
    let body := (f.getD 1 0).toNat
    let kind := header / 2 ^ 24
    let length := header / 2 ^ 8 % 2 ^ 8
    let lengths := [(0x01, 3), (0x02, 3), (0x03, 2), (0x10, 2), (0x11, 2), (0x12, 4), (0x13, 3), (0x14, 3)]
    let count := body % 2 ^ 8
    let fieldFails := (kind = 0x01 ∨ kind = 0x02) ∧ (count = 0 ∨ 32 < count) ∨
      0x10 ≤ kind ∧ 32 ≤ header / 2 ^ 16 % 2 ^ 8 ∨ kind = 0x12 ∧ body / 2 ^ 4 % 2 ^ 2 = 3
    (¬ checked → violationOf r f = some .check) ∧
    (checked → (∀ x ∈ lengths, kind ≠ x.1) → violationOf r f = some .unknownKind) ∧
    ∀ x ∈ lengths, checked → kind = x.1 →
      (length ≠ x.2 ∨ f.length ≠ x.2 → violationOf r f = some .badLength) ∧
      (length = x.2 → f.length = x.2 →
        (fieldFails → violationOf r f = some .badField) ∧
        (¬ fieldFails →
          (kind = 0x01 → violationOf r f = if r.state = .up then some .outOfState else none) ∧
          (kind = 0x02 → violationOf r f =
            if 32 < r.partnerCredits + count then some .badField
            else if r.state = .training then some .outOfState else none) ∧
          (kind = 0x03 → violationOf r f = none) ∧
          (0x10 ≤ kind → violationOf r f =
            if r.state = .training then some .outOfState
            else if 16 ≤ r.inbound.length + r.returnedOwed then some .overrun else none)))

/-- A port's entry into REINIT, in its steps (R113). Its record is emptied; its pool entries are freed; each of
its ACTIVE agents starts a purge toward ABSENT, which frees the agent's pool entries and takes it out of the
pending and unsent sets of the changes that wait for it and, for a MODIFY or RETIRE, out of the window's holder
set with its held count; a PURGING one's target ACTIVE becomes ABSENT; no FENCE is owed to any of them. Then the
claim settles (see CompletionByKind): the changes emptied complete, and the purges that hold nothing end; and a
head that waits for a slot is examined last (R141). So the claim leaves no pool entry of the port in use, and an
agent that was ACTIVE, or PURGING toward another target than FENCED, is PURGING toward ABSENT, still holding
windows, or ABSENT, holding none, with its port cleared; one PURGING toward FENCED keeps target and port while
it holds windows and is FENCED when it holds none; a FENCED one stays FENCED. Agents of other ports that are
not PURGING keep their records but for their held counts. -/
def Obligations.ReinitPurgesThePort : Prop :=
  (∀ (s : State) (p : PortId) (d : Destination),
    let lost := fun a => (s.agent a).port = some p ∧ (s.agent a).state = .active
    let dropped := fun e => (s.entry e).port = p ∨ lost (s.entry e).request.agent
    ∃ u : State,
      u = { s with
        windows := u.windows, agents := u.agents, pool := u.pool, parkOrders := u.parkOrders,
        replayList := u.replayList, slots := u.slots, ports := u.ports, purgeSet := u.purgeSet,
        portChange := true } ∧
      (∀ q, u.port q = if q = p then reinitRecord d else s.port q) ∧
      (∀ e, ((s.entry e).state ≠ .free ∧ dropped e → u.entry e = { s.entry e with state := .free }) ∧
        (¬ ((s.entry e).state ≠ .free ∧ dropped e) → u.entry e = s.entry e)) ∧
      (PoolListed s →
        ∃ keep : EntryId → Bool, (∀ e, keep e = true ↔ ¬ dropped e) ∧
          (∀ w, u.parkOrder w = (s.parkOrder w).filter keep) ∧
          u.replayList = s.replayList.filter keep) ∧
      (∀ a, let x := s.agent a
        (lost a → u.agent a = { x with
          state := .purging, target := some .absent, welcomeOwed := false, fenceOwed := false,
          held := x.held - s.awaitedHoldings a }) ∧
        (x.port = some p → x.state = .purging → x.target = some .active → u.agent a = { x with
          target := some .absent, welcomeOwed := false, fenceOwed := false }) ∧
        (x.port = some p → x.state ≠ .active → x.state ≠ .purging ∨ x.target ≠ some .active →
          u.agent a = { x with fenceOwed := false }) ∧
        (x.port ≠ some p → u.agent a = x)) ∧
      (∀ a, hasAgent u.purgeSet a = true ↔ hasAgent s.purgeSet a = true ∨ lost a) ∧
      (∀ k, ((s.slot k).state ≠ .active → u.slot k = s.slot k) ∧
        u.slot k = { s.slot k with pending := (u.slot k).pending, unsent := (u.slot k).unsent } ∧
        ((s.slot k).state = .active → ∀ a,
          let leaves := lost a ∧ hasAgent (s.slot k).pending a = true
          (hasAgent (u.slot k).pending a = true ↔
            hasAgent (s.slot k).pending a = true ∧ ¬ leaves) ∧
          (hasAgent (u.slot k).unsent a = true ↔
            hasAgent (s.slot k).unsent a = true ∧ ¬ leaves))) ∧
      (∀ w, u.window w = { s.window w with holders := (u.window w).holders } ∧
        ∀ a, hasAgent (u.window w).holders a = true ↔
          hasAgent (s.window w).holders a = true ∧ ¬ (lost a ∧ s.AwaitedAt a w)) ∧
      s.enterReinit p d = (u.settle none false).reconsider none ∧
      (s.slotWait = false → s.enterReinit p d = u.settle none false)) ∧
  ∀ (s : State) (p : PortId) (d : Destination), PoolListed s → PurgesTracked s →
    let t := s.enterReinit p d
    (∀ e, (t.entry e).state ≠ .free → (t.entry e).port ≠ p) ∧
    (∀ a, (t.agent a).port = some p → (t.agent a).state ≠ .active ∧ (t.agent a).fenceOwed = false) ∧
    (∀ a, (t.agent a).state = .purging → (t.agent a).held ≠ 0) ∧
    ∀ a, let r := s.agent a
      (r.port = some p → r.state = .active ∨ r.state = .purging ∧ r.target ≠ some .fenced →
        (t.agent a).welcomeOwed = false ∧ (t.agent a).fenceOwed = false ∧
        ((t.agent a).state = .purging ∧ (t.agent a).target = some .absent ∧
            (t.agent a).port = some p ∧ hasAgent t.purgeSet a = true ∧ (t.agent a).held ≠ 0 ∨
          (t.agent a).state = .absent ∧ (t.agent a).target = none ∧ (t.agent a).port = none ∧
            hasAgent t.purgeSet a = false ∧ (t.agent a).held = 0)) ∧
      (r.port = some p → r.state = .purging → r.target = some .fenced →
        (t.agent a).port = some p ∧ (t.agent a).fenceOwed = false ∧
        ((t.agent a).state = .purging ∧ (t.agent a).target = some .fenced ∧
            hasAgent t.purgeSet a = true ∧ (t.agent a).held ≠ 0 ∨
          (t.agent a).state = .fenced ∧ (t.agent a).target = none ∧
            hasAgent t.purgeSet a = false ∧ (t.agent a).held = 0)) ∧
      (r.port = some p → r.state = .fenced →
        t.agent a = { r with fenceOwed := false, held := (t.agent a).held }) ∧
      (r.port ≠ some p → r.state ≠ .purging → t.agent a = { r with held := (t.agent a).held })

/-! ## Departures -/

/-- The part's READY leaves once in TRAINING, carrying 16, and with the partner's READY here already the
port is UP; the part's REINIT takes the port to its destination. -/
def Obligations.ReadyAndReinitDepart : Prop :=
  ∀ (s : State) (p : PortId),
    (Serving s → (s.port p).state = .training → (s.port p).readySent = false →
      ((s.port p).partnerReady = false → exec (.readyDeparture p) s = .next
        ((s.setLane p (buildFrame 0x01 0 [16])).setPort p { s.port p with readySent := true })) ∧
      ((s.port p).partnerReady = true → ∃ t : State, exec (.readyDeparture p) s = .next t ∧
        t = { s with ports := t.ports, lanes := t.lanes, portChange := true } ∧
        t.lane p = buildFrame 0x01 0 [16] ∧ (∀ q, q ≠ p → t.port q = s.port q) ∧
        t.port p = ⟨.up, (s.port p).destination, true, true, [], s.fencesOn p,
          (s.port p).partnerCredits, 0⟩)) ∧
    (s.resetHeld = false → (s.port p).state = .reinit →
      ((s.port p).destination = .disabled → exec (.reinitDeparture p) s = .next
        { (s.setLane p (buildFrame 0x03 0 [])).setPort p { s.port p with state := .disabled } with
          portChange := true }) ∧
      ((s.port p).destination = .training → exec (.reinitDeparture p) s = .next
        { (s.setLane p (buildFrame 0x03 0 [])).setPort p
            ⟨.training, .training, false, false, [], [], 0, 0⟩ with portChange := true }))

/-- A CREDIT of the returned credits owed leaves ahead of the outbound queue; then the head of that queue
leaves for one partner credit, and with no credit it stays. -/
def Obligations.CreditsAndMessagesDepart : Prop :=
  ∀ (s : State) (p : PortId), s.resetHeld = false → (s.port p).state = .up →
    (0 < (s.port p).returnedOwed →
      exec (.creditDeparture p) s = .next
        ((s.setLane p (buildFrame 0x02 0 [BitVec.ofNat 32 (s.port p).returnedOwed])).setPort p
          { s.port p with returnedOwed := 0 }) ∧
      exec (.outboundDeparture p) s = .next s) ∧
    ∀ m rest, (s.port p).outbound = m :: rest → (s.port p).returnedOwed = 0 →
      (0 < (s.port p).partnerCredits → exec (.outboundDeparture p) s = .next
        ((s.setLane p (outFrame m)).setPort p { s.port p with
          outbound := rest, partnerCredits := (s.port p).partnerCredits - 1 })) ∧
      ((s.port p).partnerCredits = 0 → exec (.outboundDeparture p) s = .next s)

/-- The refill places the waiting messages in their order, one for each free place, and what it placed
waits no more: what still waits is the rest. It clears flags and unsent marks of agents bound to the port
alone, and changes no other field of an agent or slot. -/
def Obligations.RefillServesTheWaiting : Prop :=
  ∀ (s : State) (p : PortId), Serving s → (s.port p).state = .up →
    ∃ t : State, exec (.refill p) s = .next t ∧
      t = { s with agents := t.agents, slots := t.slots, ports := t.ports } ∧
      t.port p = (s.port p).loaded (s.waitingOn p) ∧
      (∀ q, q ≠ p → t.port q = s.port q) ∧
      (∀ a, t.agent a = { s.agent a with
            welcomeOwed := (t.agent a).welcomeOwed, fenceOwed := (t.agent a).fenceOwed } ∧
        ((t.agent a).welcomeOwed = true → (s.agent a).welcomeOwed = true) ∧
        ((t.agent a).fenceOwed = true → (s.agent a).fenceOwed = true) ∧
        ((s.agent a).state ≠ .active → (t.agent a).welcomeOwed = (s.agent a).welcomeOwed) ∧
        ((s.agent a).port ≠ some p → t.agent a = s.agent a)) ∧
      (∀ k, t.slot k = { s.slot k with unsent := (t.slot k).unsent } ∧
        ((s.slot k).state ≠ .active → t.slot k = s.slot k) ∧
        ∀ a, (hasAgent (t.slot k).unsent a = true → hasAgent (s.slot k).unsent a = true) ∧
          ((s.agent a).port ≠ some p →
            hasAgent (t.slot k).unsent a = hasAgent (s.slot k).unsent a)) ∧
      (OwedKept s → t.waitingOn p = (s.waitingOn p).drop (32 - (s.port p).outbound.length))

/-! ## The dispatcher -/

/-- HELLO by the state of the agent's record. An ACTIVE agent's purge starts toward ACTIVE: holding nothing,
it is ACTIVE again in the claim with WELCOME ACCEPTED placed, and otherwise the WELCOME is owed. Whatever
else the claim completes, ends or takes, the WELCOME is placed exactly when the purge ends in it: this rests on
the place kept for it (deduced from R33, log 14). The end of any other claim is its settling (see
CompletionByKind) and then a second look at a head that waits. The end of this one is the same, but where the
purge ends and the port's places went to other messages first, the last of these, another agent's WELCOME or
RECALL, gives its place to the WELCOME and stays owed or unsent (log 14). -/
def Obligations.HelloByAgentState : Prop :=
  (∀ u : State, u.finish none = (u.settle none false).reconsider none) ∧
  (∀ (s : State) (p : PortId) (a : AgentId) (rest : List InMsg), Serving s → s.HasRoom p →
     (s.port p).inbound = .hello a :: rest → (s.agent a).state = .active →
     (s.agent a).port = some p → ChangesNamed s →
     let u := (s.tookFrom p rest).purgeStart a .active
     let same := (u.settle none false).reconsider none
     let t := u.finish (some a)
     ((same.agent a).state = .purging ∨ (same.agent a).welcomeOwed = false → t = same) ∧
     ((same.agent a).state ≠ .purging → (same.agent a).welcomeOwed = true →
       t = { same with ports := t.ports, agents := t.agents, slots := t.slots } ∧
       (∀ q, q ≠ p → t.port q = same.port q) ∧
       t.agent a = { same.agent a with welcomeOwed := false } ∧
       ∃ l m b, b ≠ a ∧ (s.agent b).port = some p ∧ (same.port p).outbound = l ++ [m] ∧
         t.port p = { same.port p with outbound := l ++ [.welcome a .accepted] } ∧
         (m = .welcome b .accepted ∧ t.agent b = { same.agent b with welcomeOwed := true } ∧
             (∀ c, c ≠ a → c ≠ b → t.agent c = same.agent c) ∧ (∀ k, t.slot k = same.slot k) ∨
           (∀ c, c ≠ a → t.agent c = same.agent c) ∧ ∃ k, m = same.recallMessage k b false ∧
             t.slot k = { same.slot k with unsent := addAgent (same.slot k).unsent b } ∧
             ∀ j, j ≠ k → t.slot j = same.slot j))) ∧
  (∀ (s : State) (p : PortId) (a : AgentId) (rest : List InMsg), Serving s → s.HasRoom p →
     (s.port p).inbound = .hello a :: rest →
     let taken := s.tookFrom p rest
     let r := s.agent a
     (r.state = .absent → exec (.hello p) s = .next
       ((taken.setAgent a { r with state := .active, port := some p }).sent p
         (.welcome a .accepted))) ∧
     (r.state = .fenced → r.port = none ∨ r.port = some p → exec (.hello p) s = .next
       ((taken.setAgent a { r with port := some p, fenceOwed := false }).sent p
         (.welcome a .fenced))) ∧
     (r.state = .purging → r.port = some p → r.target = some .fenced → exec (.hello p) s = .next
       ((taken.setAgent a { r with fenceOwed := false }).sent p (.welcome a .fenced))) ∧
     (r.state = .purging → r.port = some p → r.target = some .absent → exec (.hello p) s = .next
       (taken.setAgent a { r with target := some .active, welcomeOwed := true })) ∧
     (r.state = .purging → r.port = some p → r.target = some .active →
       exec (.hello p) s = .next taken) ∧
     (∀ q, r.state ≠ .absent → r.port = some q → q ≠ p → exec (.hello p) s = .next
       (taken.sent p (.welcome a .duplicate))) ∧
     (r.state = .active → r.port = some p →
       ∃ t : State, exec (.hello p) s = .next t ∧
         t = (taken.purgeStart a .active).finish (some a) ∧
         ∃ l, (t.port p).outbound = (s.port p).outbound ++ l ∧
           ((t.agent a).state = .active ∧ (t.agent a).target = none ∧ (t.agent a).port = some p ∧
               (t.agent a).held = 0 ∧ (t.agent a).welcomeOwed = false ∧ .welcome a .accepted ∈ l ∨
             (t.agent a).state = .purging ∧ (t.agent a).target = some .active ∧
               (t.agent a).port = some p ∧ (t.agent a).held ≠ 0 ∧ (t.agent a).welcomeOwed = true ∧
               .welcome a .accepted ∉ l))) ∧
  ∀ (s : State) (p : PortId) (a : AgentId) (rest : List InMsg), Serving s → s.HasRoom p →
    (s.port p).inbound = .hello a :: rest → (s.agent a).state = .active →
    (s.agent a).port = some p → Unencumbered s a → Settled s →
    ∃ t : State, exec (.hello p) s = .next t ∧
      ((s.agent a).held = 0 →
        t.agent a = { s.agent a with state := .active, target := none, welcomeOwed := false } ∧
        (t.port p).outbound = (s.port p).outbound ++ [.welcome a .accepted]) ∧
      ((s.agent a).held ≠ 0 →
        t.agent a = { s.agent a with
          state := .purging, target := some .active, welcomeOwed := true } ∧
        (t.port p).outbound = (s.port p).outbound ∧ hasAgent t.purgeSet a = true) ∧
      t = { s with ports := t.ports, agents := t.agents, purgeSet := t.purgeSet } ∧
      (∀ b, b ≠ a → t.agent b = s.agent b) ∧ ∀ q, q ≠ p → t.port q = s.port q

/-- GOODBYE: a purge toward ABSENT for an ACTIVE agent (the purge start of PurgeStartTakesTheAgentOut, and
the claim's end, which HelloByAgentState spells), a change of target for a PURGING one, and nothing for any other. -/
def Obligations.GoodbyeByAgentState : Prop :=
  ∀ (s : State) (p : PortId) (a : AgentId) (rest : List InMsg), Serving s →
    (s.port p).state = .up → (s.port p).inbound = .goodbye a :: rest →
    let taken := s.tookFrom p rest
    let r := s.agent a
    (r.state = .absent ∨ r.state = .fenced ∨ r.port ≠ some p → exec (.goodbye p) s = .next taken) ∧
    (Settled s → r.state = .purging → r.port = some p → r.target = some .active →
      exec (.goodbye p) s = .next
        (taken.setAgent a { r with target := some .absent, welcomeOwed := false })) ∧
    (Settled s → r.state = .purging → r.port = some p → r.target ≠ some .active →
      exec (.goodbye p) s = .next taken) ∧
    (r.state = .active → r.port = some p →
      exec (.goodbye p) s = .next ((taken.purgeStart a .absent).finish none)) ∧
    (Settled s → r.state = .active → r.port = some p → Unencumbered s a →
      ∃ t : State, exec (.goodbye p) s = .next t ∧
        t = { taken with agents := t.agents, purgeSet := t.purgeSet } ∧
        (∀ b, b ≠ a → t.agent b = s.agent b) ∧
        (r.held = 0 → t.agent a =
          { r with state := .absent, port := none, target := none, welcomeOwed := false }) ∧
        (r.held ≠ 0 → hasAgent t.purgeSet a = true ∧ t.agent a =
          { r with state := .purging, target := some .absent, welcomeOwed := false }))

/-- RELEASE: taken, it removes the holder and lowers its held count; the last holding of a PURGING agent
ends its purge; on a CHANGING window it also answers the change, as the agent's RECALL_ACK would, the last
answer among them; failing a condition of R17, it is discarded. -/
def Obligations.ReleaseHandsBackAHolding : Prop :=
  ∀ (s : State) (p : PortId) (a : AgentId) (w : WindowId) (version : Half) (rest : List InMsg),
    Serving s → (s.port p).state = .up → (s.port p).inbound = .release a w version :: rest →
    let taken := s.tookFrom p rest
    let dropped : State :=
      (taken.setWindow w { s.window w with holders := dropAgent (s.window w).holders a }).setAgent a
        { s.agent a with held := (s.agent a).held - 1 }
    let answered := fun k : SlotId => dropped.setSlot k { s.slot k with
      pending := dropAgent (s.slot k).pending a, unsent := dropAgent (s.slot k).unsent a }
    let last := (s.agent a).state = .purging ∧ (s.agent a).held = 1
    (¬ s.ReleaseHolds p a w version → exec (.release p) s = .next taken) ∧
    (s.ReleaseHolds p a w version → Settled s →
      ((s.window w).slot = none →
        (¬ last → exec (.release p) s = .next dropped) ∧
        (last → exec (.release p) s = .next (dropped.purgesEnded []))) ∧
      (∀ k, (s.window w).slot = some k → dropAgent (s.slot k).pending a ≠ 0 →
        (¬ last → exec (.release p) s = .next (answered k)) ∧
        (last → exec (.release p) s = .next ((answered k).purgesEnded [])))) ∧
    (s.ReleaseHolds p a w version → TablesCanonical s → ∀ k, (s.window w).slot = some k →
      subjectWindow (s.slot k).subject = some w →
      let ack := s.setPort p
        { s.port p with inbound := .recallAck a (s.slot k).serial :: rest }
      ack.matchAck p a (s.slot k).serial = some k → exec (.release p) s = exec (.recallAck p) ack)

/-- RECALL_ACK: matched, it removes the agent from the change, and for WINDOW scope from the holder set
too; unmatched, it is discarded. It is matched to the slot that is ACTIVE with its serial and in which the
agent is pending, where the agent is ACTIVE and bound to the port; to none where no slot is such (R82). -/
def Obligations.AckRemovesThePendingAgent : Prop :=
  (∀ (s : State) (p : PortId) (a : AgentId) (serial : Half),
    let matched := fun k => (s.agent a).state = .active ∧ (s.agent a).port = some p ∧
      (s.slot k).state = .active ∧ (s.slot k).serial = serial ∧ hasAgent (s.slot k).pending a = true
    (s.matchAck p a serial = none ↔ ∀ k, ¬ matched k) ∧
    (∀ k, s.matchAck p a serial = some k → matched k) ∧
    ∀ k, matched k → (∀ j, matched j → j = k) → s.matchAck p a serial = some k) ∧
  ∀ (s : State) (p : PortId) (a : AgentId) (serial : Half) (rest : List InMsg),
    Serving s → (s.port p).state = .up → (s.port p).inbound = .recallAck a serial :: rest →
    let taken := s.tookFrom p rest
    (s.matchAck p a serial = none → exec (.recallAck p) s = .next taken) ∧
    ∀ k, s.matchAck p a serial = some k → Settled s → dropAgent (s.slot k).pending a ≠ 0 →
      let removed : State := taken.setSlot k { s.slot k with
        pending := dropAgent (s.slot k).pending a, unsent := dropAgent (s.slot k).unsent a }
      (subjectWindow (s.slot k).subject = none → exec (.recallAck p) s = .next removed) ∧
      (∀ w, subjectWindow (s.slot k).subject = some w →
        hasAgent (s.window w).holders a = true → exec (.recallAck p) s = .next
          ((removed.setWindow w
              { s.window w with holders := dropAgent (s.window w).holders a }).setAgent a
            { s.agent a with held := (s.agent a).held - 1 }))

/-- The RECALL_ACK of a MODIFY's last pending agent completes the change in its claim: the window takes
its new values and version, the slot is FREE, the park order moves to the replay list and the record is
posted; every other record is kept. The last answer of a change of any kind, the agent taken out, leaves what
CompletionByKind states of the claim's settling: where no other change empties with it, the completion of its
slot, with the purges ended that it leaves with nothing held: in ascending agent number, the model's choice, since the spec gives this claim no
order (log 28). A head that waits for a slot is examined last, when all this is done (R141). For the slot an
answer is matched to, see AckRemovesThePendingAgent. -/
def Obligations.LastAckCompletesTheChange : Prop :=
  (∀ (s : State) (p : PortId) (a : AgentId) (serial : Half) (rest : List InMsg) (k : SlotId)
      (w : WindowId),
    Serving s → Settled s → (s.port p).state = .up →
    (s.port p).inbound = .recallAck a serial :: rest → s.matchAck p a serial = some k →
    (s.slot k).subject = .modify w → (s.slot k).pending = oneAgent a →
    (s.window w).holders = oneAgent a →
    ∃ t : State, exec (.recallAck p) s = .next (t.reconsider none) ∧
      (s.slotWait = false → t.reconsider none = t) ∧
      t.window w = { s.window w with
        state := .live, length := (s.slot k).newValues.length, version := (s.window w).version + 1,
        holders := 0, slot := none, poisoned := false } ∧
      t.word w = ⟨(s.slot k).newValues.grant, []⟩ ∧
      (∀ v, v ≠ w → t.window v = s.window v ∧ t.word v = s.word v ∧ t.parkOrder v = s.parkOrder v) ∧
      t.agent a = { s.agent a with held := (s.agent a).held - 1 } ∧
      (∀ b, b ≠ a → t.agent b = s.agent b) ∧
      t.slot k = { s.slot k with
        state := .free, pending := 0, unsent := dropAgent (s.slot k).unsent a } ∧
      (∀ j, j ≠ k → t.slot j = s.slot j) ∧
      t.parkOrder w = [] ∧ t.replayList = s.replayList ++ s.parkOrder w ∧
      (∀ e, t.entry e =
        if e ∈ s.parkOrder w then { s.entry e with state := .replay } else s.entry e) ∧
      t.completions = s.completions ++ [⟨0x11, if (s.slot k).fenced = 0 then .done else .doneFenced,
        (s.slot k).tag, .modified w (s.slot k).serial (s.slot k).fenced ((s.window w).version + 1)
          (s.window w).poisoned⟩] ∧
      t = { s.tookFrom p rest with
        windows := t.windows, grants := t.grants, agents := t.agents, pool := t.pool,
        parkOrders := t.parkOrders, replayList := t.replayList, slots := t.slots,
        completions := t.completions, reservations := s.reservations - 1 }) ∧
  ∀ (s : State) (p : PortId) (a : AgentId) (serial : Half) (rest : List InMsg) (k : SlotId),
    Serving s → Settled s → (s.port p).state = .up →
    (s.port p).inbound = .recallAck a serial :: rest → s.matchAck p a serial = some k →
    (s.slot k).pending = oneAgent a →
    let removed : State := (s.tookFrom p rest).setSlot k { s.slot k with
      pending := 0, unsent := dropAgent (s.slot k).unsent a }
    let completed := fun u : State =>
      exec (.recallAck p) s = .next ((u.settle none false).reconsider none) ∧
      ((∀ j, ¬ (u.completeSlot k).1.Emptied j) → exec (.recallAck p) s =
        .next (((u.completeSlot k).1.purgesEnded [(u.completeSlot k).2]).reconsider none))
    (subjectWindow (s.slot k).subject = none → completed removed) ∧
    ∀ w, subjectWindow (s.slot k).subject = some w →
      (hasAgent (s.window w).holders a = true → completed
        ((removed.setWindow w
            { s.window w with holders := dropAgent (s.window w).holders a }).setAgent a
          { s.agent a with held := (s.agent a).held - 1 })) ∧
      (hasAgent (s.window w).holders a = false → completed removed)

/-! ## Changes -/

/-- The completion of a change of each kind: the records it changes and its completion record (R92 to
R96), and the slot FREE. A CLOSE frees every window of the context with its grant part zeroed and lowers
each holder's held count by the windows it held; a LEAVE takes its agent out of the context's windows and
out of the changes in flight on them. Every other record is kept. A claim that empties one change alone ends
with that completion, then the purges that hold nothing, in ascending agent number (the model's choice where
the spec gives the claim no order, log 28), then the records. In a claim that empties any number of changes,
each completing LEAVE first takes its agent out of its windows and out of the changes in flight on them, which
may empty these; then every change whose pending set is empty completes, in ascending slot number (that the
removals come before every completion is deduced, log 16): effects, park orders and records come in that
order. -/
def Obligations.CompletionByKind : Prop :=
  (∀ (s : State) (k : SlotId),
    let r := s.slot k
    let t := (s.completeSlot k).1
    let record := (s.completeSlot k).2
    let slotsKept := ∀ j, t.slot j = if j = k then { r with state := .free } else s.slot j
    t = { s with
      windows := t.windows, grants := t.grants, windowLists := t.windowLists, contexts := t.contexts,
      agents := t.agents, pool := t.pool, parkOrders := t.parkOrders, replayList := t.replayList,
      slots := t.slots } ∧
    (t.slot k).state = .free ∧ record.tag = r.tag ∧
    record.status = (if r.fenced = 0 then .done else .doneFenced) ∧
    (∀ w, r.subject = .modify w ∨ r.subject = .retire w → slotsKept ∧ t.agents = s.agents ∧
      (∀ v, v ≠ w → t.window v = s.window v ∧ t.word v = s.word v ∧ t.parkOrder v = s.parkOrder v) ∧
      t.parkOrder w = [] ∧ t.replayList = s.replayList ++ s.parkOrder w ∧
      ∀ e, t.entry e =
        if e ∈ s.parkOrder w then { s.entry e with state := .replay } else s.entry e) ∧
    (∀ w, r.subject = .modify w →
      t.window w = { s.window w with
        state := .live, length := r.newValues.length, version := (s.window w).version + 1,
        slot := none, poisoned := false } ∧
      t.word w = ⟨r.newValues.grant, []⟩ ∧ t.contexts = s.contexts ∧
      t.windowLists = s.windowLists ∧ record.kind = 0x11 ∧
      record.result = .modified w r.serial r.fenced ((s.window w).version + 1) (s.window w).poisoned) ∧
    (∀ w, r.subject = .retire w →
      t.window w = { s.window w with
        state := .free, context := 0, localBase := 0, length := 0, slot := none, poisoned := false } ∧
      t.word w = ⟨GrantPart.zero, []⟩ ∧
      (∀ c, t.windowList c =
        if c = (s.window w).context then (s.windowList c).erase w else s.windowList c) ∧
      (∀ c, t.context c = if c = (s.window w).context then
        { s.context c with windowCount := (s.context c).windowCount - 1 } else s.context c) ∧
      record.kind = 0x12 ∧ record.result = .retired w r.serial r.fenced (s.window w).version) ∧
    (∀ c, r.subject = .close c → slotsKept ∧
      (∀ d, t.context d = if d = c then { s.context c with
        state := .free, members := 0, leaving := 0, windowCount := 0, closingSlot := none }
        else s.context d) ∧
      (∀ d, t.windowList d = if d = c then [] else s.windowList d) ∧
      (∀ w ∈ s.windowList c, t.word w = ⟨GrantPart.zero, []⟩ ∧
        t.window w = ⟨.free, 0, 0, 0, (s.window w).version, 0, none, false⟩) ∧
      (∀ w, w ∉ s.windowList c → t.window w = s.window w ∧ t.word w = s.word w) ∧
      (∀ a, t.agent a = { s.agent a with held := (s.agent a).held - s.holdingsIn c a }) ∧
      t = { s with
        windows := t.windows, grants := t.grants, windowLists := t.windowLists,
        contexts := t.contexts, agents := t.agents, slots := t.slots } ∧
      record.kind = 0x02 ∧ record.result = .close c r.serial r.fenced) ∧
    (∀ c a, r.subject = .leave c a →
      (∀ d, t.context d = if d = c then { s.context c with
        leaving := dropAgent (s.context c).leaving a, members := dropAgent (s.context c).members a }
        else s.context d) ∧
      (∀ w, t.window w = if w ∈ s.windowList c then
        { s.window w with holders := dropAgent (s.window w).holders a } else s.window w) ∧
      (∀ b, t.agent b = if b = a then { s.agent a with held := (s.agent a).held - s.holdingsIn c a }
        else s.agent b) ∧
      (∀ j, (t.slot j) = { s.slot j with
          state := if j = k then .free else (s.slot j).state
          pending := (t.slot j).pending, unsent := (t.slot j).unsent } ∧
        ((∃ w ∈ s.windowList c, (s.window w).slot = some j) → hasAgent (s.slot j).pending a = true →
          (t.slot j).pending = dropAgent (s.slot j).pending a ∧
          (t.slot j).unsent = dropAgent (s.slot j).unsent a) ∧
        ((∀ w ∈ s.windowList c, (s.window w).slot ≠ some j) ∨
            hasAgent (s.slot j).pending a = false →
          (t.slot j).pending = (s.slot j).pending ∧ (t.slot j).unsent = (s.slot j).unsent)) ∧
      t = { s with
        windows := t.windows, contexts := t.contexts, agents := t.agents, slots := t.slots } ∧
      record.kind = 0x04 ∧ record.result = .leave c a r.serial r.fenced)) ∧
  (∀ (s : State) (k : SlotId), s.Emptied k → (∀ j, j ≠ k → ¬ s.Emptied j) →
    (∀ j, ¬ (s.completeSlot k).1.Emptied j) →
    s.settle none false = (s.completeSlot k).1.purgesEnded [(s.completeSlot k).2]) ∧
  ∀ s : State, ChangesNamed s → ∃ u : State,
    u = { s with windows := u.windows, agents := u.agents, slots := u.slots } ∧
    (∀ w, u.window w = { s.window w with holders := (u.window w).holders } ∧
      ∀ a, hasAgent (u.window w).holders a = true ↔
        hasAgent (s.window w).holders a = true ∧ ¬ s.LeavesWindow a w) ∧
    (∀ a, u.agent a = { s.agent a with
      held := (s.agent a).held - (List.finRange 4096).countP fun w =>
        decide (hasAgent (s.window w).holders a = true ∧ s.LeavesWindow a w) }) ∧
    (∀ j, u.slot j = { s.slot j with pending := (u.slot j).pending, unsent := (u.slot j).unsent } ∧
      ∀ a,
        let leaves := hasAgent (s.slot j).pending a = true ∧
          ∃ w, (s.window w).slot = some j ∧ s.LeavesWindow a w
        (hasAgent (u.slot j).pending a = true ↔ hasAgent (s.slot j).pending a = true ∧ ¬ leaves) ∧
        (hasAgent (u.slot j).unsent a = true ↔ hasAgent (s.slot j).unsent a = true ∧ ¬ leaves)) ∧
    let emptied := allSlots.filter fun k => decide (u.Emptied k)
    let done := u.completedAll emptied
    s.settle none false = done.1.purgesEnded done.2 ∧
    done.2.map (fun c => (c.tag, c.status)) = emptied.map (fun k =>
      ((s.slot k).tag, if (s.slot k).fenced = 0 then Status.done else .doneFenced)) ∧
    (∀ k, (done.1.slot k).state = .active ↔ (s.slot k).state = .active ∧ k ∉ emptied) ∧
    ((∀ k ∈ emptied, ∀ w, subjectWindow (s.slot k).subject = some w → (s.window w).slot = some k) →
      done.1.replayList = s.replayList ++ emptied.flatMap fun k =>
        match subjectWindow (s.slot k).subject with
        | some w => s.parkOrder w
        | none => [])

/-- The fill of a slot with a change of each kind. The ACTIVE slot takes the next serial: the counter's
next value that no ACTIVE slot holds. A window of a MODIFY or RETIRE goes CHANGING, its PURGING holders
leave it, and the holders that remain are pending; a context of a CLOSE goes CLOSING with the slot, and
its windows' holders that are not PURGING are pending; the agent of a LEAVE enters the leaving set and is
pending unless it is PURGING. The first RECALLs go to each UP port in ascending agent number while it has
free places, and the agents that found none are the unsent set. Every RECALL carries its agent, the slot's
serial, the window and its version for a MODIFY or RETIRE, the context for a CLOSE or LEAVE, and its reminder
flag (R79). -/
def Obligations.FillStartsTheChange : Prop :=
  (∀ (s : State) (k : SlotId) (a : AgentId) (reminder : Bool),
     let x := s.slot k
     (∀ w, x.subject = .modify w ∨ x.subject = .retire w →
       s.recallMessage k a reminder =
         .recall a x.serial (.window w (s.window w).version) reminder) ∧
     ∀ c, x.subject = .close c ∨ (∃ b, x.subject = .leave c b) →
       s.recallMessage k a reminder = .recall a x.serial (.context c) reminder) ∧
  (∀ (s : State) (k : SlotId) (x : ChangeSubject) (values : NewValues) (tag : Half),
     let t := s.fillSlot none k x values tag
     t = { s with
       serial := s.nextSerial, slots := t.slots, windows := t.windows, contexts := t.contexts,
       agents := t.agents, ports := t.ports } ∧
     (∀ j, j ≠ k → t.slot j = s.slot j) ∧
     t.slot k = { s.slot k with
       state := .active, serial := s.nextSerial, subject := x, tag := tag, elapsed := 0,
       reminderSent := false, fenced := 0, due := .nothing, newValues := (t.slot k).newValues,
       pending := (t.slot k).pending, unsent := (t.slot k).unsent } ∧
     (∀ p, t.port p =
       if (s.port p).state = .up then (s.port p).loaded (t.recallsOn k p) else s.port p) ∧
     (∀ a, hasAgent (t.slot k).unsent a = true ↔ hasAgent (t.slot k).pending a = true ∧
       ∀ p, (s.agent a).port = some p → (s.port p).state = .up →
         32 ≤ (s.port p).outbound.length + s.boundBefore (t.slot k).pending p a) ∧
     (∀ w, x = .modify w → (t.slot k).newValues = values) ∧
     (∀ w, x = .modify w ∨ x = .retire w →
       t.window w = { s.window w with
         state := .changing, slot := some k, holders := (t.window w).holders } ∧
       (t.slot k).pending = (t.window w).holders ∧
       (∀ a, hasAgent (t.window w).holders a = true ↔
         hasAgent (s.window w).holders a = true ∧ (s.agent a).state ≠ .purging) ∧
       (∀ v, v ≠ w → t.window v = s.window v) ∧ t.contexts = s.contexts ∧
       ∀ a, t.agent a =
         if hasAgent (s.window w).holders a = true ∧ (s.agent a).state = .purging
         then { s.agent a with held := (s.agent a).held - 1 } else s.agent a) ∧
     (∀ c, x = .close c → t.windows = s.windows ∧ t.agents = s.agents ∧
       (∀ d, t.context d = if d = c then
         { s.context c with state := .closing, closingSlot := some k } else s.context d) ∧
       ∀ a, hasAgent (t.slot k).pending a = true ↔ (s.agent a).state ≠ .purging ∧
         ∃ w ∈ s.windowList c, hasAgent (s.window w).holders a = true) ∧
     (∀ c a, x = .leave c a → t.windows = s.windows ∧ t.agents = s.agents ∧
       (∀ d, t.context d = if d = c then
         { s.context c with leaving := addAgent (s.context c).leaving a } else s.context d) ∧
       (t.slot k).pending = if (s.agent a).state = .purging then 0 else oneAgent a)) ∧
  ∀ s : State, ∃ i : Nat, i ≤ 8 ∧ s.nextSerial = s.serial + 1 + BitVec.ofNat 16 i ∧
    (∀ j, j < i → ∃ k, (s.slot k).state = .active ∧
      (s.slot k).serial = s.serial + 1 + BitVec.ofNat 16 j) ∧
    ∀ k, (s.slot k).state = .active → (s.slot k).serial ≠ s.nextSerial

/-- A change command that needs a slot while all eight are ACTIVE is not taken: the flag is set and no
record changes; while the flag is set, or no place can be reserved, no command is taken at all. The second
examination, at the end of a claim: with a slot FREE the head that waits is taken as it would be by its own
command (its record may follow those of the fence waits that the claim ends: log 15); with none FREE, or no
head waiting, nothing happens. -/
def Obligations.SlotWaitHoldsTheQueue : Prop :=
  (∀ (s : State) (r : CmdRecord) (rest : List CmdRecord) (v : NewValues),
    CanTake s r rest → (∀ k, (s.slot k).state = .active) →
    (∀ w, NeedsSlot s r (.modify w) v → exec .modifyWindow s = .next { s with slotWait := true }) ∧
    (∀ w, NeedsSlot s r (.retire w) v → exec .retireWindow s = .next { s with slotWait := true }) ∧
    (∀ c, NeedsSlot s r (.close c) v → exec .closeContext s = .next { s with slotWait := true }) ∧
    (∀ c a, NeedsSlot s r (.leave c a) v → exec .leave s = .next { s with slotWait := true })) ∧
  (∀ s : State, s.slotWait = true ∨ 16 ≤ s.completions.length + s.reservations →
    ∀ c ∈ [Instr.badCommand, .openContext, .closeContext, .join, .leave, .addWindow, .modifyWindow,
        .retireWindow, .fenceAgent, .unfenceAgent, .queryWindow, .queryAgent, .queryContext,
        .portEnable, .portDisable, .portReset], exec c s = .next s) ∧
  (∀ (s : State) (r : CmdRecord) (rest : List CmdRecord) (kind : CommandKind),
    Serving s → s.slotWait = true → (∃ k, (s.slot k).state = .free) → s.HasReservation →
    s.cmdQueue = r :: rest → recordKind r = some kind →
    kind ∈ [CommandKind.modifyWindow, .retireWindow, .closeContext, .leave] →
    ∃ t : State, exec (takeOf kind) { s with slotWait := false } = .next t ∧
      t.slotWait = false ∧ t.cmdQueue = rest ∧
      s.reconsider none = { t with completions := (s.reconsider none).completions } ∧
      (s.reconsider none).completions.Perm t.completions ∧ (s.fenceWait = [] → s.reconsider none = t)) ∧
  ∀ s : State, s.slotWait = false ∨ (∀ k, (s.slot k).state = .active) → s.reconsider none = s

/-! ## Lookups -/

/-- The outcome of checks 1 to 8 is that of the first check that fails, in the order of R47. The covering
search of check 7 finds the window of the context's list whose current range contains the page, and none
when no range does (R9). -/
def Obligations.LookupChecksInOrder : Prop :=
  (∀ (s : State) (c : ContextId) (page : LocalPage),
    let covers := fun w => (s.window w).localBase.toNat ≤ page.toNat ∧
      page.toNat < (s.window w).localBase.toNat + (s.window w).length.toNat
    (s.covering c page = none ↔ ∀ w ∈ s.windowList c, ¬ covers w) ∧
    (∀ w, s.covering c page = some w → w ∈ s.windowList c ∧ covers w) ∧
    ∀ w ∈ s.windowList c, covers w → (∀ v ∈ s.windowList c, covers v → v = w) →
      s.covering c page = some w) ∧
  ∀ (s : State) (p : PortId) (r : Request),
    let joined := (s.agent r.agent).state ≠ .absent ∧ (s.agent r.agent).port = some p
    let active := joined ∧ (s.agent r.agent).state = .active
    let opened := active ∧ (s.context r.context).state = .opened
    let member := opened ∧ hasAgent (s.context r.context).members r.agent = true ∧
      hasAgent (s.context r.context).leaving r.agent = false
    (¬ joined → s.lookupChecks p r = .deny .notJoined) ∧
    (joined → (s.agent r.agent).state = .fenced → s.lookupChecks p r = .deny .fenced) ∧
    (joined → (s.agent r.agent).state = .purging → s.lookupChecks p r = .deny .retry) ∧
    (active → (s.context r.context).state = .free → s.lookupChecks p r = .deny .noContext) ∧
    (active → (s.context r.context).state = .closing → s.lookupChecks p r = .deny .closing) ∧
    (opened → ¬ member → s.lookupChecks p r = .deny .notMember) ∧
    (member → s.covering r.context r.page = none → s.lookupChecks p r = .deny .noWindow) ∧
    (∀ w, member → s.covering r.context r.page = some w → (s.window w).state = .changing →
      s.lookupChecks p r = .changing w) ∧
    (∀ w, member → s.covering r.context r.page = some w → (s.window w).state ≠ .changing →
      s.lookupChecks p r = .live w)

/-- The arbiter: the replay head first, whenever its port has a free place; otherwise, the list being empty or
its head passed over, the first port after the last one served that holds a request; otherwise nothing is
served. A port holds a request exactly when it is UP, its outbound queue has a free place and its inbound head
is a TRANSLATE, and the request is that one (R43). A LOOKUP or a REPLAY that nothing is served for leaves the
state as it was (log 1). -/
def Obligations.ArbiterServesInRotation : Prop :=
  ∀ s : State,
    let room := fun p => (s.port p).state = .up ∧ (s.port p).outbound.length < 32
    (∀ e rest, s.replayList = e :: rest → room (s.entry e).port →
      s.replayHead = some e ∧ s.portToServe = none) ∧
    (s.replayHead = none ↔ s.replayList = [] ∨
      ∃ e rest, s.replayList = e :: rest ∧ ¬ room (s.entry e).port) ∧
    (∀ p r, s.portRequest p = some r ↔
      room p ∧ ∃ rest, (s.port p).inbound = .translate r :: rest) ∧
    (s.replayHead = none → ∀ p, s.portToServe = some p ↔
      (s.portRequest p).isSome = true ∧
      ∀ q, (q - s.lastPort - 1 : PortId) < (p - s.lastPort - 1 : PortId) → s.portRequest q = none) ∧
    (s.replayHead = none → (s.portToServe = none ↔ ∀ p, s.portRequest p = none)) ∧
    (s.replayHead = none → exec .replay s = .next s) ∧
    (s.portToServe = none → exec .lookup s = .next s)

/-- A served TRANSLATE that fails one of checks 1 to 7 is answered by the DENY of that check, and nothing
but the port and the arbiter changes. One of a LIVE window that reads Clean has a GRANT when the access
kind is in the rights, DENY RIGHTS otherwise: READ needs READ, WRITE needs WRITE and ATOMIC needs ATOMIC,
whatever the other rights are (R53). -/
def Obligations.LookupDeniesOrGrants : Prop :=
  (∀ read write atomic : Bool,
    admits ⟨read, write, atomic⟩ .read = read ∧ admits ⟨read, write, atomic⟩ .write = write ∧
    admits ⟨read, write, atomic⟩ .atomic = atomic) ∧
  ∀ (s : State) (p : PortId) (r : Request) (rest : List InMsg), Serving s →
    s.portToServe = some p → s.HasRoom p → (s.port p).inbound = .translate r :: rest →
    let taken := s.tookFrom p rest
    (∀ reason, s.lookupChecks p r = .deny reason →
      exec .lookup s = .next { taken.sent p (.deny r.agent r.tag reason) with lastPort := p }) ∧
    ∀ w, s.lookupChecks p r = .live w → Readable s w [] →
      let g := (s.word w).written
      let grant : OutMsg := .grant r.agent r.tag w (s.window w).version (s.window w).localBase
        (s.window w).length g
      (admits g.rights r.kind = true → hasAgent (s.window w).holders r.agent = true →
        exec .lookup s = .next { taken.sent p grant with lastPort := p }) ∧
      (admits g.rights r.kind = true → hasAgent (s.window w).holders r.agent = false →
        exec .lookup s = .next { ((taken.setWindow w { s.window w with
            holders := addAgent (s.window w).holders r.agent }).setAgent r.agent
          { s.agent r.agent with held := (s.agent r.agent).held + 1 }).sent p grant with
          lastPort := p }) ∧
      (admits g.rights r.kind = false →
        exec .lookup s = .next { taken.sent p (.deny r.agent r.tag .rights) with lastPort := p })

/-- A served TRANSLATE of a LIVE window with stored errors. Poisoned, it is denied POISONED without a
read. A single error is corrected, written back and recorded, and the request is answered as it is when
the corrected word reads Clean: a holder's GRANT carries the corrected values. A double error poisons the
window, is recorded, and the request is denied POISONED. -/
def Obligations.LookupOfAnErroredWindow : Prop :=
  ∀ (s : State) (p : PortId) (r : Request) (rest : List InMsg) (w : WindowId), Serving s →
    s.portToServe = some p → s.HasRoom p → (s.port p).inbound = .translate r :: rest →
    s.lookupChecks p r = .live w → (s.window w).state = .live →
    let taken := s.tookFrom p rest
    let denied : OutMsg := .deny r.agent r.tag .poisoned
    ((s.window w).poisoned = true →
      exec .lookup s = .next { taken.sent p denied with lastPort := p }) ∧
    (∀ b, Readable s w [b] →
      exec .lookup s = exec .lookup { s.setWord w ⟨(s.word w).written, []⟩ with
        storageBank := recordStorage s.storageBank .corrected w .lookup false }) ∧
    (∀ b, Readable s w [b] → hasAgent (s.window w).holders r.agent = true →
      admits (s.word w).written.rights r.kind = true →
      exec .lookup s = .next { (taken.setWord w ⟨(s.word w).written, []⟩).sent p
          (.grant r.agent r.tag w (s.window w).version (s.window w).localBase (s.window w).length
            (s.word w).written) with
        lastPort := p
        storageBank := recordStorage s.storageBank .corrected w .lookup false }) ∧
    (∀ b c, Readable s w [b, c] →
      exec .lookup s = .next
        { (taken.setWindow w { s.window w with poisoned := true }).sent p denied with
          lastPort := p
          storageBank := recordStorage s.storageBank .uncorrected w .lookup false })

/-- A served TRANSLATE that meets a CHANGING window parks in the lowest FREE entry, at the tail of the
window's park order, and is denied RETRY when no entry is FREE. -/
def Obligations.LookupParksAtAChangingWindow : Prop :=
  ∀ (s : State) (p : PortId) (r : Request) (rest : List InMsg) (w : WindowId), Serving s →
    s.portToServe = some p → s.HasRoom p → (s.port p).inbound = .translate r :: rest →
    s.lookupChecks p r = .changing w →
    (∀ e, (s.entry e).state = .free → (∀ d, d < e → (s.entry d).state ≠ .free) →
      exec .lookup s = .next { ((s.tookFrom p rest).setEntry e ⟨.parked, r, p, w⟩).setParkOrder w
        (s.parkOrder w ++ [e]) with lastPort := p }) ∧
    ((∀ e, (s.entry e).state ≠ .free) →
      exec .lookup s = .next { (s.tookFrom p rest).sent p (.deny r.agent r.tag .retry) with
        lastPort := p })

/-- A served replay. A DENY of checks 1 to 7 frees its entry, and a CHANGING window parks it again in the
entry it holds. At a LIVE window that reads Clean, a GRANT, to a holder or to an agent that becomes one, or
DENY RIGHTS frees its entry; a single error is corrected, recorded, and answered as the corrected word is;
DENY POISONED frees the entry of one that meets a poisoned window or a double error. -/
def Obligations.ReplayIsAnsweredOrParksAgain : Prop :=
  ∀ (s : State) (e : EntryId) (rest : List EntryId), Serving s → s.replayList = e :: rest →
    s.HasRoom (s.entry e).port →
    let x := s.entry e
    let a := x.request.agent
    let answer := fun (u : State) (m : OutMsg) =>
      { (u.sent x.port m).setEntry e { x with state := .free } with replayList := rest }
    (∀ reason, s.lookupChecks x.port x.request = .deny reason →
      exec .replay s = .next (answer s (.deny a x.request.tag reason))) ∧
    (∀ w, s.lookupChecks x.port x.request = .changing w →
      exec .replay s = .next { (s.setEntry e ⟨.parked, x.request, x.port, w⟩).setParkOrder w
        (s.parkOrder w ++ [e]) with replayList := rest }) ∧
    ∀ w, s.lookupChecks x.port x.request = .live w → (s.window w).state = .live →
      let g := (s.word w).written
      let grant : OutMsg := .grant a x.request.tag w (s.window w).version (s.window w).localBase
        (s.window w).length g
      (Readable s w [] → admits g.rights x.request.kind = true →
        hasAgent (s.window w).holders a = true → exec .replay s = .next (answer s grant)) ∧
      (Readable s w [] → admits g.rights x.request.kind = true →
        hasAgent (s.window w).holders a = false → exec .replay s = .next (answer
          ((s.setWindow w { s.window w with holders := addAgent (s.window w).holders a }).setAgent a
            { s.agent a with held := (s.agent a).held + 1 }) grant)) ∧
      (Readable s w [] → admits g.rights x.request.kind = false →
        exec .replay s = .next (answer s (.deny a x.request.tag .rights))) ∧
      ((s.window w).poisoned = true →
        exec .replay s = .next (answer s (.deny a x.request.tag .poisoned))) ∧
      (∀ b, Readable s w [b] → exec .replay s = exec .replay
        { s.setWord w ⟨g, []⟩ with
          storageBank := recordStorage s.storageBank .corrected w .lookup false }) ∧
      (∀ b c, Readable s w [b, c] → exec .replay s = .next
        { answer (s.setWindow w { s.window w with poisoned := true })
            (.deny a x.request.tag .poisoned) with
          storageBank := recordStorage s.storageBank .uncorrected w .lookup false })

/-! ## Purges -/

/-- The purge start: the agent is PURGING toward its target, in the purge set, and no pool entry in use is its
own. It leaves the pending and unsent sets of each ACTIVE slot it is pending in, and, for a MODIFY or RETIRE,
the holder set of the window, its held count lowered with it (R101, R18). Toward FENCED its FENCE is placed, or
owed where its port is UP and full (R38). Every other record and every other field is kept; the park orders
and the replay list lose the agent's entries and keep their order. -/
def Obligations.PurgeStartTakesTheAgentOut : Prop :=
  ∀ (s : State) (a : AgentId) (target : PurgeTarget),
    let t := s.purgeStart a target
    let onPort := fun p => target = .fenced ∧ (s.agent a).port = some p ∧ (s.port p).state = .up
    t = { s with
      windows := t.windows, agents := t.agents, pool := t.pool, parkOrders := t.parkOrders,
      replayList := t.replayList, slots := t.slots, ports := t.ports,
      purgeSet := addAgent s.purgeSet a } ∧
    t.agent a = { s.agent a with
      state := .purging, target := some target, welcomeOwed := decide (target = .active),
      fenceOwed := (t.agent a).fenceOwed, held := (s.agent a).held - s.awaitedHoldings a } ∧
    ((t.agent a).fenceOwed = true ↔
      (s.agent a).fenceOwed = true ∨ ∃ p, onPort p ∧ 32 ≤ (s.port p).outbound.length) ∧
    (∀ b, b ≠ a → t.agent b = s.agent b) ∧
    (∀ p, (onPort p ∧ (s.port p).outbound.length < 32 →
        t.port p = { s.port p with outbound := (s.port p).outbound ++ [.fence a] }) ∧
      (¬ (onPort p ∧ (s.port p).outbound.length < 32) → t.port p = s.port p)) ∧
    (∀ k, let pends := (s.slot k).state = .active ∧ hasAgent (s.slot k).pending a = true
      (pends → t.slot k = { s.slot k with
        pending := dropAgent (s.slot k).pending a, unsent := dropAgent (s.slot k).unsent a }) ∧
      (¬ pends → t.slot k = s.slot k)) ∧
    (∀ k, (t.slot k).state = .active → hasAgent (t.slot k).pending a = false) ∧
    (∀ w, (s.AwaitedAt a w → t.window w = { s.window w with
        holders := dropAgent (s.window w).holders a }) ∧
      (¬ s.AwaitedAt a w → t.window w = s.window w)) ∧
    (∀ e, let own := (s.entry e).state ≠ .free ∧ (s.entry e).request.agent = a
      (own → t.entry e = { s.entry e with state := .free }) ∧ (¬ own → t.entry e = s.entry e)) ∧
    (∀ e, (t.entry e).state ≠ .free → (t.entry e).request.agent ≠ a) ∧
    (PoolListed s →
      (∀ w, t.parkOrder w =
        (s.parkOrder w).filter fun e => decide ((s.entry e).request.agent ≠ a)) ∧
      t.replayList = s.replayList.filter fun e => decide ((s.entry e).request.agent ≠ a))

/-- A visit of the walk: the members of the purge set leave the record's holder set, each with its held
count, and the position moves on; with an empty purge set nothing is visited. The purges of the PURGING
members whose last holding this was then end, in ascending agent number: each agent takes its target, its
WELCOME is placed or stays owed, it leaves the purge set, and the fence waits on the agents now FENCED
complete. A visit of a FREE record, or of one that no member holds as its last, ends no purge. -/
def Obligations.PurgeVisitRemovesTheSet : Prop :=
  (∀ s : State, Serving s → s.purgeSet = 0 → exec .purgeVisit s = .next s) ∧
  ∀ s : State, Serving s → s.purgeSet ≠ 0 → Settled s →
    let w := s.walkPosition
    let loses := fun a => (s.window w).state ≠ .free ∧ hasAgent s.purgeSet a = true ∧
      hasAgent (s.window w).holders a = true
    ∃ t : State,
      t = { s with walkPosition := w + 1, windows := t.windows, agents := t.agents } ∧
      (∀ v, v ≠ w → t.window v = s.window v) ∧
      ((s.window w).state = .free → t.windows = s.windows ∧ t.agents = s.agents) ∧
      ((s.window w).state ≠ .free →
        t.window w = { s.window w with holders := (s.window w).holders &&& ~~~s.purgeSet }) ∧
      (∀ a, (loses a → t.agent a = { s.agent a with held := (s.agent a).held - 1 }) ∧
        (¬ loses a → t.agent a = s.agent a)) ∧
      ((∀ a, (s.agent a).state = .purging → (s.agent a).held = 1 → ¬ loses a) →
        exec .purgeVisit s = .next t) ∧
      (∀ a, a ∈ t.nothingHeld ↔ (s.agent a).state = .purging ∧ (s.agent a).held = 1 ∧ loses a) ∧
      exec .purgeVisit s = .next (t.purgesEnded [])

/-! ## Commands of the command engine -/

/-- OPEN_CONTEXT, JOIN and a record of unknown kind: applied, or refused by the first check that fails with
no record changed. A record of any of the fifteen kinds whose form fails, by an operand out of range or by
the bounds of R2, is refused with BAD_COMMAND. -/
def Obligations.OpenJoinAndBadForms : Prop :=
  ∀ (s : State) (r : CmdRecord) (rest : List CmdRecord), CanTake s r rest →
    (recordKind r = none →
      exec .badCommand s = .next (s.answered rest r .badCommand .refused)) ∧
    (∀ kind, recordKind r = some kind → FormFails s r kind →
      exec (takeOf kind) s = .next (s.answered rest r .badCommand .refused)) ∧
    (∀ c, recordKind r = some .openContext → operand2 256 r = some c →
      ((s.context c).state = .free → exec .openContext s = .next
        (((s.setContext c ⟨.opened, 0, 0, 0, none⟩).setWindowList c []).answered rest r .ok
          (.context c))) ∧
      ((s.context c).state = .opened →
        exec .openContext s = .next (s.answered rest r .contextBusy .refused)) ∧
      ((s.context c).state = .closing →
        exec .openContext s = .next (s.answered rest r .contextClosing .refused))) ∧
    (recordKind r = some .openContext → operand2 256 r = none →
      exec .openContext s = .next (s.answered rest r .badCommand .refused)) ∧
    (∀ c a, recordKind r = some .join → operand2 256 r = some c → operand3 32 r = some a →
      ((s.context c).state ≠ .opened →
        exec .join s = .next (s.answered rest r .noContext .refused)) ∧
      ((s.context c).state = .opened → hasAgent (s.context c).members a = true →
        exec .join s = .next (s.answered rest r .alreadyMember .refused)) ∧
      ((s.context c).state = .opened → hasAgent (s.context c).members a = false →
        exec .join s = .next ((s.setContext c { s.context c with
          members := addAgent (s.context c).members a }).answered rest r .ok (.member c a)))) ∧
    (recordKind r = some .join → operand2 256 r = none ∨ operand3 32 r = none →
      exec .join s = .next (s.answered rest r .badCommand .refused))

/-- CLOSE_CONTEXT and LEAVE: the refusals in the order of their checks, and what is applied at once: a
CLOSE_CONTEXT frees every window of the context with its grant part zeroed, and no agent record changes. -/
def Obligations.CloseAndLeaveAtOnce : Prop :=
  ∀ (s : State) (r : CmdRecord) (rest : List CmdRecord), CanTake s r rest →
    (∀ c, recordKind r = some .closeContext → operand2 256 r = some c →
      ((s.context c).state = .free →
        exec .closeContext s = .next (s.answered rest r .noContext .refused)) ∧
      ((s.context c).state = .closing →
        exec .closeContext s = .next (s.answered rest r .contextClosing .refused)) ∧
      ((s.context c).state = .opened → ((∃ w ∈ s.windowList c, (s.window w).state = .changing) ∨
          (s.context c).leaving ≠ 0) →
        exec .closeContext s = .next (s.answered rest r .contextBusy .refused)) ∧
      ((s.context c).state = .opened →
        (∀ w ∈ s.windowList c, (s.window w).state ≠ .changing ∧ (s.window w).holders = 0) →
        (s.context c).leaving = 0 →
        ∃ t : State, exec .closeContext s = .next (t.answered rest r .ok (.close c 0 0)) ∧
          t = { s with
            windows := t.windows, grants := t.grants, windowLists := t.windowLists,
            contexts := t.contexts } ∧
          (∀ d, t.context d = if d = c then ⟨.free, 0, 0, 0, none⟩ else s.context d) ∧
          (∀ d, t.windowList d = if d = c then [] else s.windowList d) ∧
          (∀ w ∈ s.windowList c, t.word w = ⟨GrantPart.zero, []⟩ ∧
            t.window w = ⟨.free, 0, 0, 0, (s.window w).version, 0, none, false⟩) ∧
          ∀ w, w ∉ s.windowList c → t.window w = s.window w ∧ t.word w = s.word w)) ∧
    (∀ c a, recordKind r = some .leave → operand2 256 r = some c → operand3 32 r = some a →
      ((s.context c).state = .free →
        exec .leave s = .next (s.answered rest r .noContext .refused)) ∧
      ((s.context c).state = .closing →
        exec .leave s = .next (s.answered rest r .contextClosing .refused)) ∧
      ((s.context c).state = .opened → hasAgent (s.context c).members a = false →
        exec .leave s = .next (s.answered rest r .notMember .refused)) ∧
      ((s.context c).state = .opened → hasAgent (s.context c).members a = true →
        hasAgent (s.context c).leaving a = true →
        exec .leave s = .next (s.answered rest r .agentBusy .refused)) ∧
      ((s.context c).state = .opened → hasAgent (s.context c).members a = true →
        hasAgent (s.context c).leaving a = false →
        (∀ w ∈ s.windowList c, hasAgent (s.window w).holders a = false ∧
          ((s.window w).slot = none ∨
            ∃ k, (s.window w).slot = some k ∧ hasAgent (s.slot k).pending a = false)) →
        exec .leave s = .next ((s.setContext c { s.context c with
          members := dropAgent (s.context c).members a,
          leaving := dropAgent (s.context c).leaving a }).answered rest r .ok (.leave c a 0 0))))

/-- ADD_WINDOW: the lowest FREE id is made LIVE with the command's values and the next version, and enters
its context's list; the refusals come in the order of R148. The overlap check finds a page of the range in
the current range of a window of the context's list other than the one left out, or in the range that a
MODIFY in flight will give it (R10). The id enters the list at the place of its local base: behind every id
whose base is not above it and before the rest, so that a list in ascending order stays so (R8). -/
def Obligations.AddWindowMakesALiveRecord : Prop :=
  (∀ (s : State) (c : ContextId) (self : Option WindowId) (base len : Nat),
    let within := fun (w : WindowId) (length page : Nat) =>
      (s.window w).localBase.toNat ≤ page ∧ page < (s.window w).localBase.toNat + length
    (s.overlaps c self base len = true ↔
      ∃ w ∈ s.windowList c, some w ≠ self ∧ ∃ page, (base ≤ page ∧ page < base + len) ∧
        (within w (s.window w).length.toNat page ∨
          ∃ k u, (s.window w).slot = some k ∧ (s.slot k).subject = .modify u ∧
            within w (s.slot k).newValues.length.toNat page))) ∧
  (∀ (s : State) (w : WindowId) (base : LocalPage) (l : List WindowId),
    let baseOf := fun v => (s.window v).localBase.toNat
    let placed := fun v => if v = w then base.toNat else baseOf v
    ∃ l1 l2, l = l1 ++ l2 ∧ s.insertByBase w base l = l1 ++ w :: l2 ∧
      (∀ v ∈ l1, baseOf v ≤ base.toNat) ∧
      (l.Pairwise (fun v u => baseOf v ≤ baseOf u) →
        (∀ v ∈ l2, base.toNat < baseOf v) ∧
        (w ∉ l → (s.insertByBase w base l).Pairwise fun v u => placed v ≤ placed u))) ∧
  ∀ (s : State) (r : CmdRecord) (rest : List CmdRecord) (c : ContextId) (v : NewValues),
    CanTake s r rest → recordKind r = some .addWindow → operand2 256 r = some c →
    valueOperands r = some v →
    let base := localBaseOperand r
    let overlap := s.overlaps c none base.toNat v.length.toNat
    let opened := InBounds base v ∧ (s.context c).state = .opened
    (¬ InBounds base v →
      exec .addWindow s = .next (s.answered rest r .badCommand .refused)) ∧
    (InBounds base v → (s.context c).state = .free →
      exec .addWindow s = .next (s.answered rest r .noContext .refused)) ∧
    (InBounds base v → (s.context c).state = .closing →
      exec .addWindow s = .next (s.answered rest r .contextClosing .refused)) ∧
    (opened → overlap = true → exec .addWindow s = .next (s.answered rest r .overlap .refused)) ∧
    (opened → overlap = false → (∀ w, (s.window w).state ≠ .free) →
      exec .addWindow s = .next (s.answered rest r .tableFull .refused)) ∧
    (∀ w, opened → overlap = false → (s.window w).state = .free →
      (∀ u, u < w → (s.window u).state ≠ .free) → (s.window w).holders = 0 →
      exec .addWindow s = .next (((((s.setWindowList c
            (s.insertByBase w base (s.windowList c))).setContext c { s.context c with
              windowCount := (s.context c).windowCount + 1 }).setWindow w
            ⟨.live, c, base, v.length, (s.window w).version + 1, 0, none, false⟩).setWord w
            ⟨v.grant, []⟩).answered rest r .ok (.added w ((s.window w).version + 1))))

/-- MODIFY_WINDOW: the refusals in the order of R149, and the change applied at once to a window nobody
holds. What the overlap check finds, the window itself left out, AddWindowMakesALiveRecord states (R10). -/
def Obligations.ModifyWindowAtOnce : Prop :=
  ∀ (s : State) (r : CmdRecord) (rest : List CmdRecord) (w : WindowId) (v : NewValues),
    CanTake s r rest → recordKind r = some .modifyWindow → operand2 4096 r = some w →
    valueOperands r = some v →
    let x := s.window w
    let overlap := s.overlaps x.context (some w) x.localBase.toNat v.length.toNat
    let formed := InBounds x.localBase v
    let live := formed ∧ x.state = .live ∧ (s.context x.context).state ≠ .closing
    let current := live ∧ versionOperand r = x.version
    (¬ formed → exec .modifyWindow s = .next (s.answered rest r .badCommand .refused)) ∧
    (formed → x.state = .free →
      exec .modifyWindow s = .next (s.answered rest r .noWindow .refused)) ∧
    (formed → x.state ≠ .free → (s.context x.context).state = .closing →
      exec .modifyWindow s = .next (s.answered rest r .contextClosing .refused)) ∧
    (formed → x.state = .changing → (s.context x.context).state ≠ .closing →
      exec .modifyWindow s = .next (s.answered rest r .windowBusy .refused)) ∧
    (live → versionOperand r ≠ x.version →
      exec .modifyWindow s = .next (s.answered rest r .versionMismatch .refused)) ∧
    (current → x.poisoned = true →
      exec .modifyWindow s = .next (s.answered rest r .poisoned .refused)) ∧
    (current → x.poisoned = false → v.length ≠ x.length → overlap = true →
      exec .modifyWindow s = .next (s.answered rest r .overlap .refused)) ∧
    (current → x.poisoned = false → x.holders = 0 → v.length = x.length ∨ overlap = false →
      exec .modifyWindow s = .next (((s.setWindow w { x with
            state := .live, length := v.length, version := x.version + 1, slot := none,
            poisoned := false }).setWord w ⟨v.grant, []⟩).answered rest r .ok
          (.modified w 0 0 (x.version + 1) false)))

/-- RETIRE_WINDOW: the refusals in the order of R150, and the window freed at once when nobody holds it,
poisoned or not. -/
def Obligations.RetireWindowAtOnce : Prop :=
  ∀ (s : State) (r : CmdRecord) (rest : List CmdRecord) (w : WindowId),
    CanTake s r rest → recordKind r = some .retireWindow → operand2 4096 r = some w →
    let x := s.window w
    (x.state = .free → exec .retireWindow s = .next (s.answered rest r .noWindow .refused)) ∧
    (x.state ≠ .free → (s.context x.context).state = .closing →
      exec .retireWindow s = .next (s.answered rest r .contextClosing .refused)) ∧
    (x.state = .changing → (s.context x.context).state ≠ .closing →
      exec .retireWindow s = .next (s.answered rest r .windowBusy .refused)) ∧
    (x.state = .live → (s.context x.context).state ≠ .closing → x.holders = 0 →
      exec .retireWindow s = .next ((((s.setWindowList x.context
            ((s.windowList x.context).erase w)).setContext x.context { s.context x.context with
              windowCount := (s.context x.context).windowCount - 1 }).setWindow w { x with
              state := .free, context := 0, localBase := 0, length := 0, slot := none,
              poisoned := false }).setWord w ⟨GrantPart.zero, []⟩ |>.answered rest r .ok
          (.retired w 0 0 x.version)))

/-- A valid MODIFY_WINDOW, RETIRE_WINDOW, CLOSE_CONTEXT or LEAVE that finds holders takes the lowest FREE
slot; a MODIFY_WINDOW of a window with ACTIVE holders alone completes nothing in its claim. (The order of
RECALLs, completions and purge ends in a claim that fills a slot is that of log 13, and the place of the
command's record that of log 15, both the model's readings.) -/
def Obligations.ChangesTakeTheLowestSlot : Prop :=
  ∀ (s : State) (r : CmdRecord) (rest : List CmdRecord) (v : NewValues) (k : SlotId),
    CanTake s r rest → (s.slot k).state = .free →
    (∀ j, j < k → (s.slot j).state ≠ .free) →
    let filled := fun x : ChangeSubject =>
      State.fillSlot { s with cmdQueue := rest, reservations := s.reservations + 1 } none k x v
        (recordTag r)
    (∀ w, NeedsSlot s r (.modify w) v →
      exec .modifyWindow s = .next ((filled (.modify w)).settle none false) ∧
      (Settled s → (∀ a, hasAgent (s.window w).holders a = true → (s.agent a).state = .active) →
        exec .modifyWindow s = .next (filled (.modify w)))) ∧
    (∀ w, NeedsSlot s r (.retire w) v →
      exec .retireWindow s = .next ((filled (.retire w)).settle none false)) ∧
    (∀ c, NeedsSlot s r (.close c) v →
      exec .closeContext s = .next ((filled (.close c)).settle none false)) ∧
    (∀ c a, NeedsSlot s r (.leave c a) v →
      exec .leave s = .next ((filled (.leave c a)).settle none false))

/-- FENCE_AGENT: an ABSENT agent is FENCED at once and a FENCED one stays, both DONE; an ACTIVE one with
holdings or a PURGING one is PURGING toward FENCED, with a FENCE placed or owed, and the command waits on
the fence wait list with its reservation kept; an ACTIVE one that holds nothing is FENCED in the claim,
which posts the records of every wait on it, the command's own last. Every other record is kept. The claim's
end is spelled in HelloByAgentState. -/
def Obligations.FenceAgentByState : Prop :=
  ∀ (s : State) (r : CmdRecord) (rest : List CmdRecord) (a : AgentId),
    CanTake s r rest → recordKind r = some .fenceAgent → operand2 32 r = some a →
    let waits := s.fenceWait ++ [⟨recordTag r, a⟩]
    let owes := ∃ p, (s.agent a).port = some p ∧ (s.port p).state = .up ∧
      32 ≤ (s.port p).outbound.length
    let portsOf := fun t : State => ∀ p, t.port p =
      if (s.agent a).port = some p ∧ s.HasRoom p then
        { s.port p with outbound := (s.port p).outbound ++ [.fence a] } else s.port p
    ((s.agent a).state = .absent → exec .fenceAgent s = .next
      ((s.setAgent a { s.agent a with state := .fenced }).answered rest r .done
        (.fenced a (s.agent a).port))) ∧
    ((s.agent a).state = .fenced → exec .fenceAgent s = .next
      (s.answered rest r .done (.fenced a (s.agent a).port))) ∧
    (Settled s → (s.agent a).state = .purging → (s.agent a).target = some .fenced →
      exec .fenceAgent s = .next
        { s with cmdQueue := rest, reservations := s.reservations + 1, fenceWait := waits }) ∧
    ((s.agent a).state = .active → exec .fenceAgent s = .next
      ((State.purgeStart { s with
          cmdQueue := rest, reservations := s.reservations + 1, fenceWait := waits } a .fenced).finish
        none)) ∧
    (Settled s → (s.agent a).state = .purging ∧ (s.agent a).target ≠ some .fenced ∨
        (s.agent a).state = .active ∧ Unencumbered s a ∧ (s.agent a).held ≠ 0 →
      ∃ t : State, exec .fenceAgent s = .next t ∧
        t = { s with
          cmdQueue := rest, reservations := s.reservations + 1, fenceWait := waits,
          agents := t.agents, ports := t.ports,
          purgeSet := if (s.agent a).state = .active then addAgent s.purgeSet a else s.purgeSet } ∧
        t.agent a = { s.agent a with
          state := .purging, target := some .fenced, welcomeOwed := false,
          fenceOwed := (t.agent a).fenceOwed } ∧
        ((t.agent a).fenceOwed = true ↔ (s.agent a).fenceOwed = true ∨ owes) ∧
        (∀ b, b ≠ a → t.agent b = s.agent b) ∧ portsOf t) ∧
    (Settled s → (s.agent a).state = .active → Unencumbered s a → (s.agent a).held = 0 →
      ∃ t : State, exec .fenceAgent s = .next t ∧
        t = { s with
          cmdQueue := rest, agents := t.agents, ports := t.ports,
          purgeSet := dropAgent s.purgeSet a
          fenceWait := s.fenceWait.filter fun f => f.agent ≠ a
          reservations := s.reservations + 1 - (waits.filter fun f => f.agent = a).length
          completions := s.completions ++ (waits.filter fun f => f.agent = a).map fun f =>
            ⟨0x20, .done, f.tag, .fenced a (s.agent a).port⟩ } ∧
        t.agent a = { s.agent a with
          state := .fenced, target := none, welcomeOwed := false,
          fenceOwed := (t.agent a).fenceOwed } ∧
        ((t.agent a).fenceOwed = true ↔ (s.agent a).fenceOwed = true ∨ owes) ∧
        (∀ b, b ≠ a → t.agent b = s.agent b) ∧ portsOf t)

/-- UNFENCE_AGENT: a FENCED agent goes to ABSENT, its port read and cleared, with an UNFENCE placed when
its port is UP and has room; any other agent is refused with AGENT_STATE. -/
def Obligations.UnfenceAgentByState : Prop :=
  ∀ (s : State) (r : CmdRecord) (rest : List CmdRecord) (a : AgentId),
    CanTake s r rest → recordKind r = some .unfenceAgent → operand2 32 r = some a →
    let freed := s.setAgent a { s.agent a with state := .absent, port := none, fenceOwed := false }
    ((s.agent a).state ≠ .fenced →
      exec .unfenceAgent s = .next (s.answered rest r .agentState .refused)) ∧
    (∀ p, (s.agent a).state = .fenced → (s.agent a).port = some p → s.HasRoom p →
      exec .unfenceAgent s = .next
        ((freed.sent p (.unfence a)).answered rest r .ok (.unfenced a (some p) true))) ∧
    (∀ p, (s.agent a).state = .fenced → (s.agent a).port = some p → ¬ s.HasRoom p →
      exec .unfenceAgent s = .next (freed.answered rest r .ok (.unfenced a (some p) false))) ∧
    ((s.agent a).state = .fenced → (s.agent a).port = none →
      exec .unfenceAgent s = .next (freed.answered rest r .ok (.unfenced a none false)))

/-- The three queries report the records as they stand in the claim; a QUERY_WINDOW of a window that reads
Clean changes no record, one of a poisoned window reports zeroed grant fields, and one that finds a stored
error acts on it as every read does. The key fields reported of a LIVE or CHANGING window are the record's own;
of a FREE one the state and the version are, and the others read 0. -/
def Obligations.QueriesReportTheRecords : Prop :=
  (∀ x : Window, (x.state ≠ .free → reportedKey x = x) ∧
    (x.state = .free → reportedKey x = ⟨.free, 0, 0, 0, x.version, 0, none, false⟩)) ∧
  ∀ (s : State) (r : CmdRecord) (rest : List CmdRecord), CanTake s r rest →
    (∀ a, recordKind r = some .queryAgent → operand2 32 r = some a →
      exec .queryAgent s = .next (s.answered rest r .ok (.agent a (s.agent a)))) ∧
    (∀ c, recordKind r = some .queryContext → operand2 256 r = some c →
      exec .queryContext s = .next (s.answered rest r .ok (.contextRecord c (s.context c)))) ∧
    (∀ w, recordKind r = some .queryWindow → operand2 4096 r = some w →
      (Readable s w [] → exec .queryWindow s = .next
        (s.answered rest r .ok (.window w (reportedKey (s.window w)) (s.word w).written))) ∧
      (∀ b, Readable s w [b] → exec .queryWindow s = .next
        (State.answered { s.setWord w ⟨(s.word w).written, []⟩ with
            storageBank := recordStorage s.storageBank .corrected w .query
              (decide ((s.window w).state = .free)) } rest r .ok
          (.window w (reportedKey (s.window w)) (s.word w).written))) ∧
      ((s.window w).state ≠ .free → (s.window w).poisoned = true → exec .queryWindow s = .next
        (s.answered rest r .ok (.window w (s.window w) GrantPart.zero))) ∧
      (∀ b c, Readable s w [b, c] → (s.window w).state ≠ .free → exec .queryWindow s = .next
        (State.answered { s.setWindow w { s.window w with poisoned := true } with
            storageBank := recordStorage s.storageBank .uncorrected w .query false } rest r .ok
          (.window w { s.window w with poisoned := true } GrantPart.zero))) ∧
      (∀ b c, Readable s w [b, c] → (s.window w).state = .free → exec .queryWindow s = .next
        (State.answered { s.setWord w ⟨GrantPart.zero, []⟩ with
            storageBank := recordStorage s.storageBank .uncorrected w .query true } rest r .ok
          (.window w { Window.initial with version := (s.window w).version } GrantPart.zero))))

/-- PORT_ENABLE moves a DISABLED port to TRAINING; PORT_RESET takes an UP port into REINIT toward TRAINING;
each refuses any other port with PORT_BUSY. PORT_DISABLE by the port's state: UP or TRAINING enters REINIT
toward DISABLED, REINIT has its destination set, DISABLED stays; the command's own record is the claim's
last. -/
def Obligations.PortCommandsByState : Prop :=
  ∀ (s : State) (r : CmdRecord) (rest : List CmdRecord) (p : PortId), CanTake s r rest →
    operand2 4 r = some p →
    (recordKind r = some .portEnable → (s.port p).state = .disabled →
      exec .portEnable s = .next (State.answered { s.setPort p
          ⟨.training, (s.port p).destination, false, false, [], [], 0, 0⟩ with portChange := true }
        rest r .ok (.port p .training))) ∧
    (recordKind r = some .portEnable → (s.port p).state ≠ .disabled →
      exec .portEnable s = .next (s.answered rest r .portBusy .refused)) ∧
    (recordKind r = some .portReset → (s.port p).state ≠ .up →
      exec .portReset s = .next (s.answered rest r .portBusy .refused)) ∧
    (recordKind r = some .portReset → (s.port p).state = .up →
      ∃ t : State, exec .portReset s = .next t ∧
        t = (State.enterReinit { s with cmdQueue := rest, reservations := s.reservations + 1 } p
          .training).post ⟨recordCode r, .ok, recordTag r, .port p .reinit⟩ ∧
        t.port p = reinitRecord .training ∧
        t.portChange = true ∧ t.linkBank = s.linkBank ∧
        t.completions.getLast? = some ⟨recordCode r, .ok, recordTag r, .port p .reinit⟩) ∧
    (recordKind r = some .portDisable → (s.port p).state = .disabled →
      exec .portDisable s = .next (s.answered rest r .ok (.port p .disabled))) ∧
    (recordKind r = some .portDisable → (s.port p).state = .reinit →
      exec .portDisable s = .next ((s.setPort p { s.port p with destination := .disabled }).answered
        rest r .ok (.port p .reinit))) ∧
    (recordKind r = some .portDisable →
      (s.port p).state = .training ∨ (s.port p).state = .up →
      ∃ t : State, exec .portDisable s = .next t ∧
        t = (State.enterReinit { s with cmdQueue := rest, reservations := s.reservations + 1 } p
          .disabled).post ⟨recordCode r, .ok, recordTag r, .port p .reinit⟩ ∧
        t.port p = reinitRecord .disabled ∧
        t.portChange = true ∧ t.linkBank = s.linkBank ∧
        t.completions.getLast? = some ⟨recordCode r, .ok, recordTag r, .port p .reinit⟩)

/-! ## The register window -/

/-- CMD_WORD gathers up to six words; CMD_POST queues them, those not staged being 0, or drops them with
CMD_OVERRUN when 16 records are queued. -/
def Obligations.StagingAndPosting : Prop :=
  ∀ (s : State) (value : Word), s.resetHeld = false →
    (s.staging.length < 6 →
      exec (.cmdWordWrite value) s = .next { s with staging := s.staging ++ [value] }) ∧
    (6 ≤ s.staging.length → exec (.cmdWordWrite value) s = .next s) ∧
    (∀ n w1 w2 w3 w4 w5 w6, n ≤ 6 → s.staging = [w1, w2, w3, w4, w5, w6].take n →
      s.cmdQueue.length < 16 →
      exec (.cmdPost value) s = .next { s with
        staging := []
        cmdQueue := s.cmdQueue ++ [⟨if 1 ≤ n then w1 else 0, if 2 ≤ n then w2 else 0,
          if 3 ≤ n then w3 else 0, if 4 ≤ n then w4 else 0, if 5 ≤ n then w5 else 0,
          if 6 ≤ n then w6 else 0⟩] }) ∧
    (16 ≤ s.cmdQueue.length →
      exec (.cmdPost value) s = .next { s with staging := [], cmdOverrun := true })

/-- CPL_WORD returns the words of the head record one by one, then 0; CPL_POP removes the head and starts
the reading anew. -/
def Obligations.CompletionsAreReadAndPopped : Prop :=
  ∀ (s : State) (value : Word), s.resetHeld = false →
    (∀ c rest, s.completions = c :: rest →
      (s.readPosition < 8 → exec .cplWordRead s = .next { s with
        readData := completionWord c s.readPosition, readPosition := s.readPosition + 1 }) ∧
      (s.readPosition = 8 → exec .cplWordRead s = .next { s with readData := 0 }) ∧
      exec (.cplPop value) s = .next { s with completions := rest, readPosition := 0 }) ∧
    (s.completions = [] → exec .cplWordRead s = .next { s with readData := 0 } ∧
      exec (.cplPop value) s = .next s)

/-- The writes to ATTN_CAUSE, ATTN_ENABLE, RECALL_LIMIT, SCRUB_INTERVAL and FAULT_CLEAR, and a write to a
read-only register or to an offset that names none, which changes nothing. The word a read of each register
returns, field by field, and 0 for a write-only register and an offset that names none. -/
def Obligations.RegisterWritesAndReads : Prop :=
  (∀ (s : State) (value : Word), s.resetHeld = false →
    exec (.attnCauseWrite value) s = .next { s with
      cmdOverrun := s.cmdOverrun && !value.getLsbD 2
      portChange := s.portChange && !value.getLsbD 3 } ∧
    exec (.attnEnableWrite value) s = .next { s with attnEnable := value.extractLsb' 0 4 } ∧
    exec (.recallLimitWrite value) s = .next { s with
      recallLimit := if value.toNat % 4096 = 0 then 1 else BitVec.ofNat 12 (value.toNat % 4096) } ∧
    exec (.scrubIntervalWrite value) s = .next { s with
      scrubInterval := BitVec.ofNat 8 (value.toNat % 256) } ∧
    exec (.faultClear value) s = .next { s with
      storageBank := if value.getLsbD 0 then ⟨false, false, .corrected, 0, .lookup, false⟩
        else s.storageBank
      recallBank := if value.getLsbD 1 then ⟨false, false, 0, .modify 0, 0⟩ else s.recallBank
      linkBank := if value.getLsbD 2 then ⟨false, false, 0, .check⟩ else s.linkBank }) ∧
  (∀ (s : State) (offset : BitVec 8) (value : Word),
    (Instr.registerWriteIgnored offset value).wf = true →
    exec (.registerWriteIgnored offset value) s = .next s) ∧
  (∀ s : State, s.resetHeld = false → s.reservations ≤ 16 → s.completions.length ≤ 16 →
    let read := fun offset : BitVec 8 => (readRegister s offset).toNat
    let valid := fun v o : Bool => 2 ^ 31 * flagCode v + 2 ^ 30 * flagCode o
    readRegister s 0x00 = 0x5A732041 ∧
    read 0x01 = 2 ^ 8 * s.reservations + 2 * flagCode s.slotWait + flagCode s.init ∧
    read 0x03 = 8 * flagCode s.portChange + 4 * flagCode s.cmdOverrun + 2 * flagCode (faultCause s)
      + flagCode (cplReady s) ∧
    read 0x04 = s.attnEnable.toNat ∧
    read 0x05 = 2 ^ 24 * portStateCode (s.port 3).state + 2 ^ 16 * portStateCode (s.port 2).state
      + 2 ^ 8 * portStateCode (s.port 1).state + portStateCode (s.port 0).state ∧
    read 0x0A = 16 - s.cmdQueue.length ∧
    (s.completions = [] ∨ 8 ≤ s.readPosition → read 0x0C = 0) ∧
    (∀ c rest, s.completions = c :: rest → s.readPosition < 8 →
      readRegister s 0x0C = completionWord c s.readPosition) ∧
    read 0x0E = s.completions.length ∧
    read 0x10 = s.recallLimit.toNat ∧ read 0x11 = s.scrubInterval.toNat ∧
    read 0x18 = valid s.storageBank.valid s.storageBank.overflow + severityCode s.storageBank.severity ∧
    read 0x19 = 2 ^ 20 * flagCode s.storageBank.freeNote
      + 2 ^ 16 * detectorCode s.storageBank.detector + s.storageBank.window.val ∧
    read 0x1C = valid s.recallBank.valid s.recallBank.overflow ∧
    read 0x1D = 2 ^ 16 * changeKindCode s.recallBank.subject + s.recallBank.serial.toNat ∧
    (∀ w, s.recallBank.subject = .modify w ∨ s.recallBank.subject = .retire w →
      read 0x1E = w.val) ∧
    (∀ c, s.recallBank.subject = .close c → read 0x1E = c.val) ∧
    (∀ c a, s.recallBank.subject = .leave c a → read 0x1E = 2 ^ 16 * a.val + c.val) ∧
    readRegister s 0x1F = s.recallBank.fenced ∧
    read 0x20 = valid s.linkBank.valid s.linkBank.overflow ∧
    read 0x21 = 2 ^ 8 * violationCode s.linkBank.kind + s.linkBank.port.val ∧
    ∀ offset : BitVec 8, offset ∉ ([0x00, 0x01, 0x03, 0x04, 0x05, 0x0A, 0x0C, 0x0E, 0x10, 0x11, 0x18,
      0x19, 0x1C, 0x1D, 0x1E, 0x1F, 0x20, 0x21] : List (BitVec 8)) → read offset = 0) ∧
  [PortState.disabled, .training, .up, .reinit].map portStateCode = [0, 1, 2, 3] ∧
  [Severity.corrected, .uncorrected].map severityCode = [0, 1] ∧
  [Detector.lookup, .query, .scrub].map detectorCode = [0, 1, 2] ∧
  [ChangeSubject.modify 0, .retire 0, .close 0, .leave 0 0].map changeKindCode = [0, 1, 2, 3] ∧
  [Violation.check, .unknownKind, .badLength, .badField, .outOfState, .overrun].map violationCode =
    [0, 1, 2, 3, 4, 5]

/-- The causes and the pin: CPL_READY follows the completion queue, FAULT the valid banks, and ATTN_N is
asserted while an enabled cause is set and RESET_N is high. The recording of a fault in a bank: stored when
the bank is not valid, else overflow, with the details replaced by a STORAGE fault of higher severity
alone. -/
def Obligations.AttentionAndBanks : Prop :=
  (∀ s : State,
     (cplReady s = true ↔ s.completions ≠ []) ∧
     (faultCause s = true ↔
       s.storageBank.valid = true ∨ s.recallBank.valid = true ∨ s.linkBank.valid = true) ∧
     (attnAsserted s = true ↔ s.resetHeld = false ∧
       (cplReady s = true ∧ s.attnEnable.getLsbD 0 = true ∨
         faultCause s = true ∧ s.attnEnable.getLsbD 1 = true ∨
         s.cmdOverrun = true ∧ s.attnEnable.getLsbD 2 = true ∨
         s.portChange = true ∧ s.attnEnable.getLsbD 3 = true))) ∧
  (∀ (b : StorageBank) (severity : Severity) (w : WindowId) (d : Detector) (free : Bool),
    (b.valid = false → recordStorage b severity w d free = ⟨true, false, severity, w, d, free⟩) ∧
    (b.valid = true → b.severity = .corrected → severity = .uncorrected →
      recordStorage b severity w d free = ⟨true, true, .uncorrected, w, d, free⟩) ∧
    (b.valid = true → (b.severity = .uncorrected ∨ severity = .corrected) →
      recordStorage b severity w d free = { b with overflow := true })) ∧
  (∀ (b : RecallBank) (serial : Half) (x : ChangeSubject) (fenced : AgentSet),
    recordRecall b serial x fenced =
      if b.valid = true then { b with overflow := true } else ⟨true, false, serial, x, fenced⟩) ∧
  (∀ (b : LinkBank) (p : PortId) (v : Violation),
    recordLink b p v = if b.valid = true then { b with overflow := true } else ⟨true, false, p, v⟩)

/-! ## Layouts -/

/-- Every inbound frame laid out as R176 and R177 give is read back as its message; the header, body
and check words of every frame the part sends; the fields of a command record, read from its six words
(R178); the eight words of a completion record, for every status and every result; and the codes of kinds,
statuses and states. -/
def Obligations.FramesAndRecordsByLayout : Prop :=
  (∀ r : CmdRecord,
     let field := fun (w : Word) (lo n : Nat) => w.toNat / 2 ^ lo % 2 ^ n
     (recordCode r).toNat = field r.w1 24 8 ∧ (recordTag r).toNat = field r.w1 0 16 ∧
     (∀ kind, recordKind r = some kind ↔ (kind, field r.w1 24 8) ∈ [(.openContext, 0x01),
       (.closeContext, 0x02), (.join, 0x03), (.leave, 0x04), (.addWindow, 0x10), (.modifyWindow, 0x11),
       (.retireWindow, 0x12), (.fenceAgent, 0x20), (.unfenceAgent, 0x21), (.queryWindow, 0x30),
       (.queryAgent, 0x31), (.queryContext, 0x32), (.portEnable, 0x40), (.portDisable, 0x41),
       (.portReset, 0x42)]) ∧
     (∀ (n : Nat) (x : Fin n), (operand2 n r = some x ↔ field r.w2 0 16 = x.val) ∧
       (operand3 n r = some x ↔ field r.w3 0 16 = x.val)) ∧
     (versionOperand r).toNat = field r.w3 0 16 ∧
     (localBaseOperand r).toNat = 2 ^ 32 * field r.w4 28 4 + r.w3.toNat ∧
     ∀ v : NewValues, valueOperands r = some v ↔
       v.length.toNat = field r.w4 0 25 ∧ 1 ≤ v.length.toNat ∧ v.length.toNat ≤ 2 ^ 24 ∧
       v.grant.globalBase.toNat = 2 ^ 32 * field r.w6 0 8 + r.w5.toNat ∧
       (v.grant.rights.read = true ↔ field r.w2 16 1 = 1) ∧
       (v.grant.rights.write = true ↔ field r.w2 17 1 = 1) ∧
       (v.grant.rights.atomic = true ↔ field r.w2 18 1 = 1) ∧ field r.w2 16 3 ≠ 0 ∧
       field r.w2 20 2 = match v.grant.cls with | .strict => 0 | .posted => 1 | .cached => 2) ∧
  (∀ (a : AgentId) (n : Nat) (tag version : Half) (c : ContextId) (page : LocalPage) (w : WindowId),
     (1 ≤ n → n ≤ 32 →
       decodeFrame (buildFrame 0x01 0 [wordOf [(0, n)]]) = .ready n ∧
       decodeFrame (buildFrame 0x02 0 [wordOf [(0, n)]]) = .credit n) ∧
     decodeFrame (buildFrame 0x03 0 []) = .reinit ∧
     decodeFrame (buildFrame 0x10 a []) = .agent (.hello a) ∧
     decodeFrame (buildFrame 0x11 a []) = .agent (.goodbye a) ∧
     (∀ kind : AccessKind, decodeFrame (buildFrame 0x12 a
       [wordOf [(16, tag.toNat), (8, c.val), (4, match kind with | .read => 0 | .write => 1 | .atomic => 2),
         (0, page.toNat / 2 ^ 32)], page.truncate 32]) = .agent (.translate ⟨a, tag, c, page, kind⟩)) ∧
     decodeFrame (buildFrame 0x13 a [wordOf [(16, w.val), (0, version.toNat)]]) =
       .agent (.release a w version) ∧
     decodeFrame (buildFrame 0x14 a [wordOf [(0, tag.toNat)]]) = .agent (.recallAck a tag)) ∧
  (∀ (kind agent : Nat) (body : List Word), kind < 256 → agent < 256 → body.length ≤ 6 →
     ∃ header check : Word, buildFrame kind agent body = header :: body ++ [check] ∧
       header.toNat = 2 ^ 24 * kind + 2 ^ 16 * agent + 2 ^ 8 * (body.length + 2) ∧
       check.toNat = (crc16 (header :: body)).toNat) ∧
  (∀ (a : AgentId) (tag version : Half) (w : WindowId) (c : ContextId) (localBase : LocalPage)
     (length : PageCount) (g : GrantPart) (o : WelcomeOutcome) (d : DenyReason) (again : Bool),
     (∃ w1 : Word, outFrame (.welcome a o) = buildFrame 0x20 a [w1] ∧ w1.toNat = welcomeCode o) ∧
     (∃ w1 w2 w3 w4 w5 w6 : Word,
       outFrame (.grant a tag w version localBase length g) =
         buildFrame 0x21 a [w1, w2, w3, w4, w5, w6] ∧
       w1.toNat = 2 ^ 16 * tag.toNat + version.toNat ∧
       w2.toNat = 2 ^ 24 * (localBase.toNat / 2 ^ 32) + 2 ^ 20 * classCode g.cls
         + 2 ^ 16 * rightsCode g.rights + w.val ∧
       w3.toNat = localBase.toNat % 2 ^ 32 ∧ w4.toNat = length.toNat ∧
       w5.toNat = g.globalBase.toNat % 2 ^ 32 ∧ w6.toNat = g.globalBase.toNat / 2 ^ 32) ∧
     (∃ w1 : Word, outFrame (.deny a tag d) = buildFrame 0x22 a [w1] ∧
       w1.toNat = 2 ^ 16 * tag.toNat + denyCode d) ∧
     (∃ w1 w2 : Word, outFrame (.recall a tag (.window w version) again) = buildFrame 0x23 a [w1, w2] ∧
       w1.toNat = 2 ^ 16 * tag.toNat + version.toNat ∧ w2.toNat = 2 ^ 30 * flagCode again + w.val) ∧
     (∃ w1 w2 : Word, outFrame (.recall a tag (.context c) again) = buildFrame 0x23 a [w1, w2] ∧
       w1.toNat = 2 ^ 16 * tag.toNat ∧ w2.toNat = 2 ^ 31 + 2 ^ 30 * flagCode again + c.val) ∧
     outFrame (.fence a) = buildFrame 0x24 a [] ∧ outFrame (.unfence a) = buildFrame 0x25 a []) ∧
  [WelcomeOutcome.accepted, .duplicate, .fenced].map welcomeCode = [0, 1, 2] ∧
  [DenyReason.notJoined, .fenced, .retry, .noContext, .closing, .notMember, .noWindow, .poisoned,
    .rights].map denyCode = [1, 2, 3, 4, 5, 6, 7, 8, 9] ∧
  [AccessClass.strict, .posted, .cached].map classCode = [0, 1, 2] ∧
  (∀ x : Rights, rightsCode x = flagCode x.read + 2 * flagCode x.write + 4 * flagCode x.atomic) ∧
  (∀ (kind : BitVec 8) (status : Status) (tag : Half) (x : Result),
     (completionWord ⟨kind, status, tag, x⟩ 0).toNat =
       2 ^ 24 * kind.toNat + 2 ^ 16 * statusCode status + tag.toNat) ∧
  (∀ (kind : BitVec 8) (status : Status) (tag : Half) (c : ContextId) (a : AgentId) (w : WindowId)
     (p : PortId) (serial version : Half) (fenced : AgentSet) (port : Option PortId) (flag : Bool)
     (key : Window) (g : GrantPart) (r : Agent) (x : Context) (state : PortState),
     let words := fun y : Result => (List.range 7).map fun i =>
       (completionWord ⟨kind, status, tag, y⟩ (i + 1)).toNat
     let present := fun (o : Option Nat) (lo bit : Nat) => (o.map fun v => 2 ^ lo * v + 2 ^ bit).getD 0
     words .refused = [0, 0, 0, 0, 0, 0, 0] ∧
     words (.context c) = [c.val, 0, 0, 0, 0, 0, 0] ∧
     words (.close c serial fenced) = [c.val, serial.toNat, fenced.toNat, 0, 0, 0, 0] ∧
     words (.member c a) = [2 ^ 16 * a.val + c.val, 0, 0, 0, 0, 0, 0] ∧
     words (.leave c a serial fenced) =
       [2 ^ 16 * a.val + c.val, serial.toNat, fenced.toNat, 0, 0, 0, 0] ∧
     words (.added w version) = [w.val, 0, 0, version.toNat, 0, 0, 0] ∧
     words (.modified w serial fenced version flag) =
       [w.val, serial.toNat, fenced.toNat, 2 ^ 31 * flagCode flag + version.toNat, 0, 0, 0] ∧
     words (.retired w serial fenced version) =
       [w.val, serial.toNat, fenced.toNat, version.toNat, 0, 0, 0] ∧
     words (.fenced a port) = [2 ^ 16 * a.val, 0, 0, 0, present (port.map Fin.val) 0 2, 0, 0] ∧
     words (.unfenced a port flag) =
       [2 ^ 16 * a.val, 0, 0, 0, 8 * flagCode flag + present (port.map Fin.val) 0 2, 0, 0] ∧
     words (.window w key g) =
       [2 ^ 31 * flagCode key.poisoned + present (key.slot.map Fin.val) 24 27
           + 2 ^ 16 * windowStateCode key.state + w.val,
         2 ^ 24 * (g.globalBase.toNat / 2 ^ 32) + 2 ^ 16 * (key.localBase.toNat / 2 ^ 32)
           + 2 ^ 12 * classCode g.cls + 2 ^ 8 * rightsCode g.rights + key.context.val,
         key.localBase.toNat % 2 ^ 32, key.length.toNat, key.version.toNat, key.holders.toNat,
         g.globalBase.toNat % 2 ^ 32] ∧
     (r.held ≤ 4096 → words (.agent a r) =
       [2 ^ 16 * a.val + 2 ^ 9 * flagCode r.fenceOwed + 2 ^ 8 * flagCode r.welcomeOwed
           + present (r.target.map purgeTargetCode) 4 6 + agentStateCode r.state,
         r.held, 0, 0, present (r.port.map Fin.val) 0 2, 0, 0]) ∧
     (x.windowCount ≤ 4096 → words (.contextRecord c x) =
       [present (x.closingSlot.map Fin.val) 24 27 + 2 ^ 16 * contextStateCode x.state + c.val,
         x.windowCount, x.members.toNat, x.leaving.toNat, 0, 0, 0]) ∧
     words (.port p state) = [2 ^ 16 * portStateCode state + p.val, 0, 0, 0, 0, 0, 0]) ∧
  [WindowState.free, .live, .changing].map windowStateCode = [0, 1, 2] ∧
  [ContextState.free, .opened, .closing].map contextStateCode = [0, 1, 2] ∧
  [AgentState.absent, .active, .purging, .fenced].map agentStateCode = [0, 1, 2, 3] ∧
  [PurgeTarget.absent, .active, .fenced].map purgeTargetCode = [0, 1, 2] ∧
  [Status.ok, .done, .doneFenced, .badCommand, .noContext, .contextBusy, .contextClosing,
    .alreadyMember, .notMember, .agentBusy, .overlap, .tableFull, .noWindow, .windowBusy,
    .versionMismatch, .poisoned, .agentState, .portBusy].map statusCode =
    [0x00, 0x01, 0x02, 0x10, 0x11, 0x12, 0x13, 0x14, 0x15, 0x16, 0x17, 0x18, 0x19, 0x1A, 0x1B, 0x1C,
      0x1D, 0x1E] ∧
  commandKinds.map commandCode = [0x01, 0x02, 0x03, 0x04, 0x10, 0x11, 0x12, 0x20, 0x21, 0x30, 0x31,
    0x32, 0x40, 0x41, 0x42] ∧
  completionWord ⟨0x01, .ok, 0x1234, .context 7⟩ 0 = 0x01001234 ∧
  completionWord ⟨0x01, .ok, 0x1234, .context 7⟩ 1 = 7 ∧
  completionWord ⟨0x11, .doneFenced, 5, .modified 12 9 0x108 6 true⟩ 0 = 0x11020005 ∧
  completionWord ⟨0x11, .doneFenced, 5, .modified 12 9 0x108 6 true⟩ 1 = 12 ∧
  completionWord ⟨0x11, .doneFenced, 5, .modified 12 9 0x108 6 true⟩ 2 = 9 ∧
  completionWord ⟨0x11, .doneFenced, 5, .modified 12 9 0x108 6 true⟩ 3 = 0x108 ∧
  completionWord ⟨0x11, .doneFenced, 5, .modified 12 9 0x108 6 true⟩ 4 = 0x80000006 ∧
  completionWord ⟨0x20, .done, 1, .fenced 5 (some 2)⟩ 1 = 0x00050000 ∧
  completionWord ⟨0x20, .done, 1, .fenced 5 (some 2)⟩ 5 = 6 ∧
  completionWord ⟨0x00, .badCommand, 0, .refused⟩ 0 = 0x00100000 ∧
  ∀ (c : Completion) (i : Nat), c.result = .refused → 1 ≤ i → completionWord c i = 0

/-! ## Invariants -/

/-- Device reset leaves every invariant of Safety in force, and nothing left over. -/
def Obligations.InvariantsHoldAtReset : Prop :=
  TablesCanonical State.reset ∧ PortsBounded State.reset ∧ ReservationsKept State.reset ∧
  HeldCountsExact State.reset ∧ SubsetsKept State.reset ∧ PurgesTracked State.reset ∧
  PoolListed State.reset ∧ RegistersInRange State.reset ∧ WaitsBounded State.reset ∧
  ChangesNamed State.reset ∧ Settled State.reset

/-- Every step keeps each agent's held count equal to the number of windows it holds. -/
def Obligations.StepKeepsHeldCountsExact : Prop :=
  ∀ s t : State, HeldCountsExact s → step s = .next t → HeldCountsExact t

/-- Every step keeps the completion reservations exact and the completion queue within its places. -/
def Obligations.StepKeepsReservations : Prop :=
  ∀ s t : State, ReservationsKept s → step s = .next t → ReservationsKept t

/-- Every step keeps every port's queues and credits within their bounds. -/
def Obligations.StepKeepsPortsBounded : Prop :=
  ∀ s t : State, PortsBounded s → step s = .next t → PortsBounded t

/-- Every step keeps the parking pool's entries on exactly the lists their states name. -/
def Obligations.StepKeepsPoolListed : Prop :=
  ∀ s t : State, PoolListed s → step s = .next t → PoolListed t

/-- Every step keeps the purge set the set of PURGING agents, what is owed to an agent within its state,
and the directory quiet in the walk. -/
def Obligations.StepKeepsPurgesTracked : Prop :=
  ∀ s t : State, PurgesTracked s → step s = .next t → PurgesTracked t

/-- Every step keeps each unsent set within its pending set and each leaving set within its member set; and
every step keeps a window CHANGING exactly while it names the ACTIVE slot of a MODIFY or RETIRE of it. -/
def Obligations.StepKeepsSubsets : Prop :=
  (∀ s t : State, SubsetsKept s → step s = .next t → SubsetsKept t) ∧
  ∀ s t : State, ChangesNamed s → step s = .next t → ChangesNamed t

/-- Every step keeps the elapsed time of an ACTIVE slot within the largest limit. -/
def Obligations.StepKeepsWaitsBounded : Prop :=
  ∀ s t : State, WaitsBounded s → step s = .next t → WaitsBounded t

/-- Every step keeps the registers and queues of the management port in their ranges. -/
def Obligations.StepKeepsRegistersInRange : Prop :=
  ∀ s t : State, RegistersInRange s → step s = .next t → RegistersInRange t

/-- Every step keeps every table in its one canonical form. -/
def Obligations.StepKeepsTablesCanonical : Prop :=
  ∀ s t : State, TablesCanonical s → step s = .next t → TablesCanonical t
end

