-- ==== Sys2Proof/Laws/Table.lean ====
section
/-! SUPPORT. What a table reads as after a write, and that a write keeps the canonical form. -/

namespace Sys2Proof.Machine

variable {n : Nat} {α : Type}

theorem tableGet_tableRemove (d : α) (t : Table n α) (i j : Fin n) :
    tableGet d (tableRemove t i) j = if j = i then d else tableGet d t j := by
  induction t with
  | nil => simp [tableRemove, tableGet]
  | cons x rest ih =>
    obtain ⟨k, v⟩ := x
    simp only [tableRemove]
    by_cases hki : k = i
    · subst hki
      rw [if_pos rfl, ih]
      by_cases hj : j = k
      · simp [hj]
      · simp [hj, tableGet, Ne.symm hj]
    · simp only [if_neg hki, tableGet, ih]
      by_cases hkj : k = j
      · subst hkj; simp [hki]
      · simp [hkj]

theorem tableGet_tableInsert (d : α) (t : Table n α) (i j : Fin n) (v : α) :
    tableGet d (tableInsert t i v) j = if j = i then v else tableGet d t j := by
  induction t with
  | nil => simp [tableInsert, tableGet, eq_comm]
  | cons x rest ih =>
    obtain ⟨k, w⟩ := x
    simp only [tableInsert]
    by_cases h1 : i < k
    · simp only [if_pos h1, tableGet]
      by_cases hj : j = i
      · subst hj; simp
      · simp [hj, Ne.symm hj]
    · rw [if_neg h1]
      by_cases h2 : i = k
      · subst h2
        by_cases hj : j = i
        · subst hj; simp [tableGet]
        · simp [tableGet, hj, Ne.symm hj]
      · simp only [if_neg h2, tableGet, ih]
        by_cases hkj : k = j
        · subst hkj; simp [Ne.symm h2]
        · simp [hkj]

/-- A table reads, after a write, as the value written at its index and as before elsewhere. -/
theorem tableGet_tableSet [DecidableEq α] (d : α) (t : Table n α) (i j : Fin n) (v : α) :
    tableGet d (tableSet d t i v) j = if j = i then v else tableGet d t j := by
  unfold tableSet
  by_cases hv : v = d
  · rw [if_pos hv, tableGet_tableRemove, hv]
  · rw [if_neg hv, tableGet_tableInsert]

theorem mem_tableRemove {t : Table n α} {i : Fin n} {x : Fin n × α} (h : x ∈ tableRemove t i) :
    x ∈ t := by
  induction t with
  | nil => simp [tableRemove] at h
  | cons y rest ih =>
    simp only [tableRemove] at h
    split at h
    · exact List.mem_cons_of_mem _ (ih h)
    · rcases List.mem_cons.mp h with h | h
      · simp [h]
      · exact List.mem_cons_of_mem _ (ih h)

theorem mem_tableInsert {t : Table n α} {i : Fin n} {v : α} {x : Fin n × α}
    (h : x ∈ tableInsert t i v) : x = (i, v) ∨ x ∈ t := by
  induction t with
  | nil => simpa [tableInsert] using h
  | cons y rest ih =>
    obtain ⟨k, w⟩ := y
    simp only [tableInsert] at h
    split at h
    · rcases List.mem_cons.mp h with h | h
      · exact Or.inl h
      · exact Or.inr h
    · split at h
      · rcases List.mem_cons.mp h with h | h
        · exact Or.inl h
        · exact Or.inr (List.mem_cons_of_mem _ h)
      · rcases List.mem_cons.mp h with h | h
        · exact Or.inr (by simp [h])
        · rcases ih h with h | h
          · exact Or.inl h
          · exact Or.inr (List.mem_cons_of_mem _ h)

/-- What holds of the default and of every entry of a table holds of every record. -/
theorem tableGet_all (q : α → Prop) (d : α) (l : Table n α) (i : Fin n) (hd : q d)
    (h : ∀ p ∈ l, q p.2) : q (tableGet d l i) := by
  induction l with
  | nil => exact hd
  | cons x l ih =>
    obtain ⟨j, v⟩ := x
    rw [tableGet]
    split
    · exact h (j, v) List.mem_cons_self
    · exact ih fun p hp => h p (List.mem_cons_of_mem _ hp)

theorem tableRemove_wf {d : α} {t : Table n α} (i : Fin n) (h : TableWf d t) :
    TableWf d (tableRemove t i) := by
  refine ⟨?_, fun x hx => h.2 x (mem_tableRemove hx)⟩
  have hp := h.1
  clear h
  induction t with
  | nil => simp [tableRemove]
  | cons y rest ih =>
    have hp' := List.pairwise_cons.mp hp
    simp only [tableRemove]
    split
    · exact ih hp'.2
    · exact List.pairwise_cons.mpr ⟨fun x hx => hp'.1 x (mem_tableRemove hx), ih hp'.2⟩

theorem tableInsert_wf {d : α} {t : Table n α} (i : Fin n) {v : α} (hv : v ≠ d) (h : TableWf d t) :
    TableWf d (tableInsert t i v) := by
  constructor
  · have hp := h.1
    clear h
    induction t with
    | nil => simp [tableInsert]
    | cons y rest ih =>
      obtain ⟨k, w⟩ := y
      have hp' := List.pairwise_cons.mp hp
      simp only [tableInsert]
      split
      · rename_i hlt
        refine List.pairwise_cons.mpr ⟨fun x hx => ?_, hp⟩
        rcases List.mem_cons.mp hx with hx | hx
        · simpa [hx] using hlt
        · exact lt_trans hlt (hp'.1 x hx)
      · split
        · rename_i heq
          exact List.pairwise_cons.mpr ⟨fun x hx => by simpa [heq] using hp'.1 x hx, hp'.2⟩
        · rename_i hlt hne
          refine List.pairwise_cons.mpr ⟨fun x hx => ?_, ih hp'.2⟩
          rcases mem_tableInsert hx with hx | hx
          · rw [hx]; exact lt_of_le_of_ne (not_lt.mp hlt) (Ne.symm hne)
          · exact hp'.1 x hx
  · intro x hx
    rcases mem_tableInsert hx with hx | hx
    · rw [hx]; exact hv
    · exact h.2 x hx

/-- Every write keeps the canonical form. -/
theorem tableSet_wf [DecidableEq α] {d : α} {t : Table n α} (i : Fin n) (v : α) (h : TableWf d t) :
    TableWf d (tableSet d t i v) := by
  unfold tableSet
  split
  · exact tableRemove_wf i h
  · rename_i hv
    exact tableInsert_wf i hv h

end Sys2Proof.Machine
end

