-- ==== Sys2Proof/Laws/State.lean ====
section
/-! SUPPORT. What each update of State leaves in each field and each table. -/

namespace Sys2Proof.Machine

/-! ## Fields -/

@[simp] theorem State.setWindow_pending (s : State) (w : WindowId) (x : Window) :
    (s.setWindow w x).pending = s.pending := rfl
@[simp] theorem State.setWindow_resetHeld (s : State) (w : WindowId) (x : Window) :
    (s.setWindow w x).resetHeld = s.resetHeld := rfl
@[simp] theorem State.setWindow_init (s : State) (w : WindowId) (x : Window) :
    (s.setWindow w x).init = s.init := rfl
@[simp] theorem State.setWindow_walkTicks (s : State) (w : WindowId) (x : Window) :
    (s.setWindow w x).walkTicks = s.walkTicks := rfl
@[simp] theorem State.setWindow_grants (s : State) (w : WindowId) (x : Window) :
    (s.setWindow w x).grants = s.grants := rfl
@[simp] theorem State.setWindow_windowLists (s : State) (w : WindowId) (x : Window) :
    (s.setWindow w x).windowLists = s.windowLists := rfl
@[simp] theorem State.setWindow_contexts (s : State) (w : WindowId) (x : Window) :
    (s.setWindow w x).contexts = s.contexts := rfl
@[simp] theorem State.setWindow_agents (s : State) (w : WindowId) (x : Window) :
    (s.setWindow w x).agents = s.agents := rfl
@[simp] theorem State.setWindow_lastPort (s : State) (w : WindowId) (x : Window) :
    (s.setWindow w x).lastPort = s.lastPort := rfl
@[simp] theorem State.setWindow_pool (s : State) (w : WindowId) (x : Window) :
    (s.setWindow w x).pool = s.pool := rfl
@[simp] theorem State.setWindow_parkOrders (s : State) (w : WindowId) (x : Window) :
    (s.setWindow w x).parkOrders = s.parkOrders := rfl
@[simp] theorem State.setWindow_replayList (s : State) (w : WindowId) (x : Window) :
    (s.setWindow w x).replayList = s.replayList := rfl
@[simp] theorem State.setWindow_slots (s : State) (w : WindowId) (x : Window) :
    (s.setWindow w x).slots = s.slots := rfl
@[simp] theorem State.setWindow_serial (s : State) (w : WindowId) (x : Window) :
    (s.setWindow w x).serial = s.serial := rfl
@[simp] theorem State.setWindow_purgeSet (s : State) (w : WindowId) (x : Window) :
    (s.setWindow w x).purgeSet = s.purgeSet := rfl
@[simp] theorem State.setWindow_walkPosition (s : State) (w : WindowId) (x : Window) :
    (s.setWindow w x).walkPosition = s.walkPosition := rfl
@[simp] theorem State.setWindow_ports (s : State) (w : WindowId) (x : Window) :
    (s.setWindow w x).ports = s.ports := rfl
@[simp] theorem State.setWindow_lanes (s : State) (w : WindowId) (x : Window) :
    (s.setWindow w x).lanes = s.lanes := rfl
@[simp] theorem State.setWindow_cmdQueue (s : State) (w : WindowId) (x : Window) :
    (s.setWindow w x).cmdQueue = s.cmdQueue := rfl
@[simp] theorem State.setWindow_completions (s : State) (w : WindowId) (x : Window) :
    (s.setWindow w x).completions = s.completions := rfl
@[simp] theorem State.setWindow_reservations (s : State) (w : WindowId) (x : Window) :
    (s.setWindow w x).reservations = s.reservations := rfl
@[simp] theorem State.setWindow_slotWait (s : State) (w : WindowId) (x : Window) :
    (s.setWindow w x).slotWait = s.slotWait := rfl
@[simp] theorem State.setWindow_fenceWait (s : State) (w : WindowId) (x : Window) :
    (s.setWindow w x).fenceWait = s.fenceWait := rfl
@[simp] theorem State.setWindow_staging (s : State) (w : WindowId) (x : Window) :
    (s.setWindow w x).staging = s.staging := rfl
@[simp] theorem State.setWindow_readPosition (s : State) (w : WindowId) (x : Window) :
    (s.setWindow w x).readPosition = s.readPosition := rfl
@[simp] theorem State.setWindow_readData (s : State) (w : WindowId) (x : Window) :
    (s.setWindow w x).readData = s.readData := rfl
@[simp] theorem State.setWindow_cmdOverrun (s : State) (w : WindowId) (x : Window) :
    (s.setWindow w x).cmdOverrun = s.cmdOverrun := rfl
@[simp] theorem State.setWindow_portChange (s : State) (w : WindowId) (x : Window) :
    (s.setWindow w x).portChange = s.portChange := rfl
@[simp] theorem State.setWindow_attnEnable (s : State) (w : WindowId) (x : Window) :
    (s.setWindow w x).attnEnable = s.attnEnable := rfl
@[simp] theorem State.setWindow_recallLimit (s : State) (w : WindowId) (x : Window) :
    (s.setWindow w x).recallLimit = s.recallLimit := rfl
@[simp] theorem State.setWindow_scrubInterval (s : State) (w : WindowId) (x : Window) :
    (s.setWindow w x).scrubInterval = s.scrubInterval := rfl
@[simp] theorem State.setWindow_scrubPosition (s : State) (w : WindowId) (x : Window) :
    (s.setWindow w x).scrubPosition = s.scrubPosition := rfl
@[simp] theorem State.setWindow_scrubTimer (s : State) (w : WindowId) (x : Window) :
    (s.setWindow w x).scrubTimer = s.scrubTimer := rfl
@[simp] theorem State.setWindow_scrubAhead (s : State) (w : WindowId) (x : Window) :
    (s.setWindow w x).scrubAhead = s.scrubAhead := rfl
@[simp] theorem State.setWindow_storageBank (s : State) (w : WindowId) (x : Window) :
    (s.setWindow w x).storageBank = s.storageBank := rfl
@[simp] theorem State.setWindow_recallBank (s : State) (w : WindowId) (x : Window) :
    (s.setWindow w x).recallBank = s.recallBank := rfl
@[simp] theorem State.setWindow_linkBank (s : State) (w : WindowId) (x : Window) :
    (s.setWindow w x).linkBank = s.linkBank := rfl
@[simp] theorem State.setWord_pending (s : State) (w : WindowId) (x : CodeWord) :
    (s.setWord w x).pending = s.pending := rfl
@[simp] theorem State.setWord_resetHeld (s : State) (w : WindowId) (x : CodeWord) :
    (s.setWord w x).resetHeld = s.resetHeld := rfl
@[simp] theorem State.setWord_init (s : State) (w : WindowId) (x : CodeWord) :
    (s.setWord w x).init = s.init := rfl
@[simp] theorem State.setWord_walkTicks (s : State) (w : WindowId) (x : CodeWord) :
    (s.setWord w x).walkTicks = s.walkTicks := rfl
@[simp] theorem State.setWord_windows (s : State) (w : WindowId) (x : CodeWord) :
    (s.setWord w x).windows = s.windows := rfl
@[simp] theorem State.setWord_windowLists (s : State) (w : WindowId) (x : CodeWord) :
    (s.setWord w x).windowLists = s.windowLists := rfl
@[simp] theorem State.setWord_contexts (s : State) (w : WindowId) (x : CodeWord) :
    (s.setWord w x).contexts = s.contexts := rfl
@[simp] theorem State.setWord_agents (s : State) (w : WindowId) (x : CodeWord) :
    (s.setWord w x).agents = s.agents := rfl
@[simp] theorem State.setWord_lastPort (s : State) (w : WindowId) (x : CodeWord) :
    (s.setWord w x).lastPort = s.lastPort := rfl
@[simp] theorem State.setWord_pool (s : State) (w : WindowId) (x : CodeWord) :
    (s.setWord w x).pool = s.pool := rfl
@[simp] theorem State.setWord_parkOrders (s : State) (w : WindowId) (x : CodeWord) :
    (s.setWord w x).parkOrders = s.parkOrders := rfl
@[simp] theorem State.setWord_replayList (s : State) (w : WindowId) (x : CodeWord) :
    (s.setWord w x).replayList = s.replayList := rfl
@[simp] theorem State.setWord_slots (s : State) (w : WindowId) (x : CodeWord) :
    (s.setWord w x).slots = s.slots := rfl
@[simp] theorem State.setWord_serial (s : State) (w : WindowId) (x : CodeWord) :
    (s.setWord w x).serial = s.serial := rfl
@[simp] theorem State.setWord_purgeSet (s : State) (w : WindowId) (x : CodeWord) :
    (s.setWord w x).purgeSet = s.purgeSet := rfl
@[simp] theorem State.setWord_walkPosition (s : State) (w : WindowId) (x : CodeWord) :
    (s.setWord w x).walkPosition = s.walkPosition := rfl
@[simp] theorem State.setWord_ports (s : State) (w : WindowId) (x : CodeWord) :
    (s.setWord w x).ports = s.ports := rfl
@[simp] theorem State.setWord_lanes (s : State) (w : WindowId) (x : CodeWord) :
    (s.setWord w x).lanes = s.lanes := rfl
@[simp] theorem State.setWord_cmdQueue (s : State) (w : WindowId) (x : CodeWord) :
    (s.setWord w x).cmdQueue = s.cmdQueue := rfl
@[simp] theorem State.setWord_completions (s : State) (w : WindowId) (x : CodeWord) :
    (s.setWord w x).completions = s.completions := rfl
@[simp] theorem State.setWord_reservations (s : State) (w : WindowId) (x : CodeWord) :
    (s.setWord w x).reservations = s.reservations := rfl
@[simp] theorem State.setWord_slotWait (s : State) (w : WindowId) (x : CodeWord) :
    (s.setWord w x).slotWait = s.slotWait := rfl
@[simp] theorem State.setWord_fenceWait (s : State) (w : WindowId) (x : CodeWord) :
    (s.setWord w x).fenceWait = s.fenceWait := rfl
@[simp] theorem State.setWord_staging (s : State) (w : WindowId) (x : CodeWord) :
    (s.setWord w x).staging = s.staging := rfl
@[simp] theorem State.setWord_readPosition (s : State) (w : WindowId) (x : CodeWord) :
    (s.setWord w x).readPosition = s.readPosition := rfl
@[simp] theorem State.setWord_readData (s : State) (w : WindowId) (x : CodeWord) :
    (s.setWord w x).readData = s.readData := rfl
@[simp] theorem State.setWord_cmdOverrun (s : State) (w : WindowId) (x : CodeWord) :
    (s.setWord w x).cmdOverrun = s.cmdOverrun := rfl
@[simp] theorem State.setWord_portChange (s : State) (w : WindowId) (x : CodeWord) :
    (s.setWord w x).portChange = s.portChange := rfl
@[simp] theorem State.setWord_attnEnable (s : State) (w : WindowId) (x : CodeWord) :
    (s.setWord w x).attnEnable = s.attnEnable := rfl
@[simp] theorem State.setWord_recallLimit (s : State) (w : WindowId) (x : CodeWord) :
    (s.setWord w x).recallLimit = s.recallLimit := rfl
@[simp] theorem State.setWord_scrubInterval (s : State) (w : WindowId) (x : CodeWord) :
    (s.setWord w x).scrubInterval = s.scrubInterval := rfl
@[simp] theorem State.setWord_scrubPosition (s : State) (w : WindowId) (x : CodeWord) :
    (s.setWord w x).scrubPosition = s.scrubPosition := rfl
@[simp] theorem State.setWord_scrubTimer (s : State) (w : WindowId) (x : CodeWord) :
    (s.setWord w x).scrubTimer = s.scrubTimer := rfl
@[simp] theorem State.setWord_scrubAhead (s : State) (w : WindowId) (x : CodeWord) :
    (s.setWord w x).scrubAhead = s.scrubAhead := rfl
@[simp] theorem State.setWord_storageBank (s : State) (w : WindowId) (x : CodeWord) :
    (s.setWord w x).storageBank = s.storageBank := rfl
@[simp] theorem State.setWord_recallBank (s : State) (w : WindowId) (x : CodeWord) :
    (s.setWord w x).recallBank = s.recallBank := rfl
@[simp] theorem State.setWord_linkBank (s : State) (w : WindowId) (x : CodeWord) :
    (s.setWord w x).linkBank = s.linkBank := rfl
@[simp] theorem State.setWindowList_pending (s : State) (c : ContextId) (x : List WindowId) :
    (s.setWindowList c x).pending = s.pending := rfl
@[simp] theorem State.setWindowList_resetHeld (s : State) (c : ContextId) (x : List WindowId) :
    (s.setWindowList c x).resetHeld = s.resetHeld := rfl
@[simp] theorem State.setWindowList_init (s : State) (c : ContextId) (x : List WindowId) :
    (s.setWindowList c x).init = s.init := rfl
@[simp] theorem State.setWindowList_walkTicks (s : State) (c : ContextId) (x : List WindowId) :
    (s.setWindowList c x).walkTicks = s.walkTicks := rfl
@[simp] theorem State.setWindowList_windows (s : State) (c : ContextId) (x : List WindowId) :
    (s.setWindowList c x).windows = s.windows := rfl
@[simp] theorem State.setWindowList_grants (s : State) (c : ContextId) (x : List WindowId) :
    (s.setWindowList c x).grants = s.grants := rfl
@[simp] theorem State.setWindowList_contexts (s : State) (c : ContextId) (x : List WindowId) :
    (s.setWindowList c x).contexts = s.contexts := rfl
@[simp] theorem State.setWindowList_agents (s : State) (c : ContextId) (x : List WindowId) :
    (s.setWindowList c x).agents = s.agents := rfl
@[simp] theorem State.setWindowList_lastPort (s : State) (c : ContextId) (x : List WindowId) :
    (s.setWindowList c x).lastPort = s.lastPort := rfl
@[simp] theorem State.setWindowList_pool (s : State) (c : ContextId) (x : List WindowId) :
    (s.setWindowList c x).pool = s.pool := rfl
@[simp] theorem State.setWindowList_parkOrders (s : State) (c : ContextId) (x : List WindowId) :
    (s.setWindowList c x).parkOrders = s.parkOrders := rfl
@[simp] theorem State.setWindowList_replayList (s : State) (c : ContextId) (x : List WindowId) :
    (s.setWindowList c x).replayList = s.replayList := rfl
@[simp] theorem State.setWindowList_slots (s : State) (c : ContextId) (x : List WindowId) :
    (s.setWindowList c x).slots = s.slots := rfl
@[simp] theorem State.setWindowList_serial (s : State) (c : ContextId) (x : List WindowId) :
    (s.setWindowList c x).serial = s.serial := rfl
@[simp] theorem State.setWindowList_purgeSet (s : State) (c : ContextId) (x : List WindowId) :
    (s.setWindowList c x).purgeSet = s.purgeSet := rfl
@[simp] theorem State.setWindowList_walkPosition (s : State) (c : ContextId) (x : List WindowId) :
    (s.setWindowList c x).walkPosition = s.walkPosition := rfl
@[simp] theorem State.setWindowList_ports (s : State) (c : ContextId) (x : List WindowId) :
    (s.setWindowList c x).ports = s.ports := rfl
@[simp] theorem State.setWindowList_lanes (s : State) (c : ContextId) (x : List WindowId) :
    (s.setWindowList c x).lanes = s.lanes := rfl
@[simp] theorem State.setWindowList_cmdQueue (s : State) (c : ContextId) (x : List WindowId) :
    (s.setWindowList c x).cmdQueue = s.cmdQueue := rfl
@[simp] theorem State.setWindowList_completions (s : State) (c : ContextId) (x : List WindowId) :
    (s.setWindowList c x).completions = s.completions := rfl
@[simp] theorem State.setWindowList_reservations (s : State) (c : ContextId) (x : List WindowId) :
    (s.setWindowList c x).reservations = s.reservations := rfl
@[simp] theorem State.setWindowList_slotWait (s : State) (c : ContextId) (x : List WindowId) :
    (s.setWindowList c x).slotWait = s.slotWait := rfl
@[simp] theorem State.setWindowList_fenceWait (s : State) (c : ContextId) (x : List WindowId) :
    (s.setWindowList c x).fenceWait = s.fenceWait := rfl
@[simp] theorem State.setWindowList_staging (s : State) (c : ContextId) (x : List WindowId) :
    (s.setWindowList c x).staging = s.staging := rfl
@[simp] theorem State.setWindowList_readPosition (s : State) (c : ContextId) (x : List WindowId) :
    (s.setWindowList c x).readPosition = s.readPosition := rfl
@[simp] theorem State.setWindowList_readData (s : State) (c : ContextId) (x : List WindowId) :
    (s.setWindowList c x).readData = s.readData := rfl
@[simp] theorem State.setWindowList_cmdOverrun (s : State) (c : ContextId) (x : List WindowId) :
    (s.setWindowList c x).cmdOverrun = s.cmdOverrun := rfl
@[simp] theorem State.setWindowList_portChange (s : State) (c : ContextId) (x : List WindowId) :
    (s.setWindowList c x).portChange = s.portChange := rfl
@[simp] theorem State.setWindowList_attnEnable (s : State) (c : ContextId) (x : List WindowId) :
    (s.setWindowList c x).attnEnable = s.attnEnable := rfl
@[simp] theorem State.setWindowList_recallLimit (s : State) (c : ContextId) (x : List WindowId) :
    (s.setWindowList c x).recallLimit = s.recallLimit := rfl
@[simp] theorem State.setWindowList_scrubInterval (s : State) (c : ContextId) (x : List WindowId) :
    (s.setWindowList c x).scrubInterval = s.scrubInterval := rfl
@[simp] theorem State.setWindowList_scrubPosition (s : State) (c : ContextId) (x : List WindowId) :
    (s.setWindowList c x).scrubPosition = s.scrubPosition := rfl
@[simp] theorem State.setWindowList_scrubTimer (s : State) (c : ContextId) (x : List WindowId) :
    (s.setWindowList c x).scrubTimer = s.scrubTimer := rfl
@[simp] theorem State.setWindowList_scrubAhead (s : State) (c : ContextId) (x : List WindowId) :
    (s.setWindowList c x).scrubAhead = s.scrubAhead := rfl
@[simp] theorem State.setWindowList_storageBank (s : State) (c : ContextId) (x : List WindowId) :
    (s.setWindowList c x).storageBank = s.storageBank := rfl
@[simp] theorem State.setWindowList_recallBank (s : State) (c : ContextId) (x : List WindowId) :
    (s.setWindowList c x).recallBank = s.recallBank := rfl
@[simp] theorem State.setWindowList_linkBank (s : State) (c : ContextId) (x : List WindowId) :
    (s.setWindowList c x).linkBank = s.linkBank := rfl
@[simp] theorem State.setContext_pending (s : State) (c : ContextId) (x : Context) :
    (s.setContext c x).pending = s.pending := rfl
@[simp] theorem State.setContext_resetHeld (s : State) (c : ContextId) (x : Context) :
    (s.setContext c x).resetHeld = s.resetHeld := rfl
@[simp] theorem State.setContext_init (s : State) (c : ContextId) (x : Context) :
    (s.setContext c x).init = s.init := rfl
@[simp] theorem State.setContext_walkTicks (s : State) (c : ContextId) (x : Context) :
    (s.setContext c x).walkTicks = s.walkTicks := rfl
@[simp] theorem State.setContext_windows (s : State) (c : ContextId) (x : Context) :
    (s.setContext c x).windows = s.windows := rfl
@[simp] theorem State.setContext_grants (s : State) (c : ContextId) (x : Context) :
    (s.setContext c x).grants = s.grants := rfl
@[simp] theorem State.setContext_windowLists (s : State) (c : ContextId) (x : Context) :
    (s.setContext c x).windowLists = s.windowLists := rfl
@[simp] theorem State.setContext_agents (s : State) (c : ContextId) (x : Context) :
    (s.setContext c x).agents = s.agents := rfl
@[simp] theorem State.setContext_lastPort (s : State) (c : ContextId) (x : Context) :
    (s.setContext c x).lastPort = s.lastPort := rfl
@[simp] theorem State.setContext_pool (s : State) (c : ContextId) (x : Context) :
    (s.setContext c x).pool = s.pool := rfl
@[simp] theorem State.setContext_parkOrders (s : State) (c : ContextId) (x : Context) :
    (s.setContext c x).parkOrders = s.parkOrders := rfl
@[simp] theorem State.setContext_replayList (s : State) (c : ContextId) (x : Context) :
    (s.setContext c x).replayList = s.replayList := rfl
@[simp] theorem State.setContext_slots (s : State) (c : ContextId) (x : Context) :
    (s.setContext c x).slots = s.slots := rfl
@[simp] theorem State.setContext_serial (s : State) (c : ContextId) (x : Context) :
    (s.setContext c x).serial = s.serial := rfl
@[simp] theorem State.setContext_purgeSet (s : State) (c : ContextId) (x : Context) :
    (s.setContext c x).purgeSet = s.purgeSet := rfl
@[simp] theorem State.setContext_walkPosition (s : State) (c : ContextId) (x : Context) :
    (s.setContext c x).walkPosition = s.walkPosition := rfl
@[simp] theorem State.setContext_ports (s : State) (c : ContextId) (x : Context) :
    (s.setContext c x).ports = s.ports := rfl
@[simp] theorem State.setContext_lanes (s : State) (c : ContextId) (x : Context) :
    (s.setContext c x).lanes = s.lanes := rfl
@[simp] theorem State.setContext_cmdQueue (s : State) (c : ContextId) (x : Context) :
    (s.setContext c x).cmdQueue = s.cmdQueue := rfl
@[simp] theorem State.setContext_completions (s : State) (c : ContextId) (x : Context) :
    (s.setContext c x).completions = s.completions := rfl
@[simp] theorem State.setContext_reservations (s : State) (c : ContextId) (x : Context) :
    (s.setContext c x).reservations = s.reservations := rfl
@[simp] theorem State.setContext_slotWait (s : State) (c : ContextId) (x : Context) :
    (s.setContext c x).slotWait = s.slotWait := rfl
@[simp] theorem State.setContext_fenceWait (s : State) (c : ContextId) (x : Context) :
    (s.setContext c x).fenceWait = s.fenceWait := rfl
@[simp] theorem State.setContext_staging (s : State) (c : ContextId) (x : Context) :
    (s.setContext c x).staging = s.staging := rfl
@[simp] theorem State.setContext_readPosition (s : State) (c : ContextId) (x : Context) :
    (s.setContext c x).readPosition = s.readPosition := rfl
@[simp] theorem State.setContext_readData (s : State) (c : ContextId) (x : Context) :
    (s.setContext c x).readData = s.readData := rfl
@[simp] theorem State.setContext_cmdOverrun (s : State) (c : ContextId) (x : Context) :
    (s.setContext c x).cmdOverrun = s.cmdOverrun := rfl
@[simp] theorem State.setContext_portChange (s : State) (c : ContextId) (x : Context) :
    (s.setContext c x).portChange = s.portChange := rfl
@[simp] theorem State.setContext_attnEnable (s : State) (c : ContextId) (x : Context) :
    (s.setContext c x).attnEnable = s.attnEnable := rfl
@[simp] theorem State.setContext_recallLimit (s : State) (c : ContextId) (x : Context) :
    (s.setContext c x).recallLimit = s.recallLimit := rfl
@[simp] theorem State.setContext_scrubInterval (s : State) (c : ContextId) (x : Context) :
    (s.setContext c x).scrubInterval = s.scrubInterval := rfl
@[simp] theorem State.setContext_scrubPosition (s : State) (c : ContextId) (x : Context) :
    (s.setContext c x).scrubPosition = s.scrubPosition := rfl
@[simp] theorem State.setContext_scrubTimer (s : State) (c : ContextId) (x : Context) :
    (s.setContext c x).scrubTimer = s.scrubTimer := rfl
@[simp] theorem State.setContext_scrubAhead (s : State) (c : ContextId) (x : Context) :
    (s.setContext c x).scrubAhead = s.scrubAhead := rfl
@[simp] theorem State.setContext_storageBank (s : State) (c : ContextId) (x : Context) :
    (s.setContext c x).storageBank = s.storageBank := rfl
@[simp] theorem State.setContext_recallBank (s : State) (c : ContextId) (x : Context) :
    (s.setContext c x).recallBank = s.recallBank := rfl
@[simp] theorem State.setContext_linkBank (s : State) (c : ContextId) (x : Context) :
    (s.setContext c x).linkBank = s.linkBank := rfl
@[simp] theorem State.setAgent_pending (s : State) (a : AgentId) (x : Agent) :
    (s.setAgent a x).pending = s.pending := rfl
@[simp] theorem State.setAgent_resetHeld (s : State) (a : AgentId) (x : Agent) :
    (s.setAgent a x).resetHeld = s.resetHeld := rfl
@[simp] theorem State.setAgent_init (s : State) (a : AgentId) (x : Agent) :
    (s.setAgent a x).init = s.init := rfl
@[simp] theorem State.setAgent_walkTicks (s : State) (a : AgentId) (x : Agent) :
    (s.setAgent a x).walkTicks = s.walkTicks := rfl
@[simp] theorem State.setAgent_windows (s : State) (a : AgentId) (x : Agent) :
    (s.setAgent a x).windows = s.windows := rfl
@[simp] theorem State.setAgent_grants (s : State) (a : AgentId) (x : Agent) :
    (s.setAgent a x).grants = s.grants := rfl
@[simp] theorem State.setAgent_windowLists (s : State) (a : AgentId) (x : Agent) :
    (s.setAgent a x).windowLists = s.windowLists := rfl
@[simp] theorem State.setAgent_contexts (s : State) (a : AgentId) (x : Agent) :
    (s.setAgent a x).contexts = s.contexts := rfl
@[simp] theorem State.setAgent_lastPort (s : State) (a : AgentId) (x : Agent) :
    (s.setAgent a x).lastPort = s.lastPort := rfl
@[simp] theorem State.setAgent_pool (s : State) (a : AgentId) (x : Agent) :
    (s.setAgent a x).pool = s.pool := rfl
@[simp] theorem State.setAgent_parkOrders (s : State) (a : AgentId) (x : Agent) :
    (s.setAgent a x).parkOrders = s.parkOrders := rfl
@[simp] theorem State.setAgent_replayList (s : State) (a : AgentId) (x : Agent) :
    (s.setAgent a x).replayList = s.replayList := rfl
@[simp] theorem State.setAgent_slots (s : State) (a : AgentId) (x : Agent) :
    (s.setAgent a x).slots = s.slots := rfl
@[simp] theorem State.setAgent_serial (s : State) (a : AgentId) (x : Agent) :
    (s.setAgent a x).serial = s.serial := rfl
@[simp] theorem State.setAgent_purgeSet (s : State) (a : AgentId) (x : Agent) :
    (s.setAgent a x).purgeSet = s.purgeSet := rfl
@[simp] theorem State.setAgent_walkPosition (s : State) (a : AgentId) (x : Agent) :
    (s.setAgent a x).walkPosition = s.walkPosition := rfl
@[simp] theorem State.setAgent_ports (s : State) (a : AgentId) (x : Agent) :
    (s.setAgent a x).ports = s.ports := rfl
@[simp] theorem State.setAgent_lanes (s : State) (a : AgentId) (x : Agent) :
    (s.setAgent a x).lanes = s.lanes := rfl
@[simp] theorem State.setAgent_cmdQueue (s : State) (a : AgentId) (x : Agent) :
    (s.setAgent a x).cmdQueue = s.cmdQueue := rfl
@[simp] theorem State.setAgent_completions (s : State) (a : AgentId) (x : Agent) :
    (s.setAgent a x).completions = s.completions := rfl
@[simp] theorem State.setAgent_reservations (s : State) (a : AgentId) (x : Agent) :
    (s.setAgent a x).reservations = s.reservations := rfl
@[simp] theorem State.setAgent_slotWait (s : State) (a : AgentId) (x : Agent) :
    (s.setAgent a x).slotWait = s.slotWait := rfl
@[simp] theorem State.setAgent_fenceWait (s : State) (a : AgentId) (x : Agent) :
    (s.setAgent a x).fenceWait = s.fenceWait := rfl
@[simp] theorem State.setAgent_staging (s : State) (a : AgentId) (x : Agent) :
    (s.setAgent a x).staging = s.staging := rfl
@[simp] theorem State.setAgent_readPosition (s : State) (a : AgentId) (x : Agent) :
    (s.setAgent a x).readPosition = s.readPosition := rfl
@[simp] theorem State.setAgent_readData (s : State) (a : AgentId) (x : Agent) :
    (s.setAgent a x).readData = s.readData := rfl
@[simp] theorem State.setAgent_cmdOverrun (s : State) (a : AgentId) (x : Agent) :
    (s.setAgent a x).cmdOverrun = s.cmdOverrun := rfl
@[simp] theorem State.setAgent_portChange (s : State) (a : AgentId) (x : Agent) :
    (s.setAgent a x).portChange = s.portChange := rfl
@[simp] theorem State.setAgent_attnEnable (s : State) (a : AgentId) (x : Agent) :
    (s.setAgent a x).attnEnable = s.attnEnable := rfl
@[simp] theorem State.setAgent_recallLimit (s : State) (a : AgentId) (x : Agent) :
    (s.setAgent a x).recallLimit = s.recallLimit := rfl
@[simp] theorem State.setAgent_scrubInterval (s : State) (a : AgentId) (x : Agent) :
    (s.setAgent a x).scrubInterval = s.scrubInterval := rfl
@[simp] theorem State.setAgent_scrubPosition (s : State) (a : AgentId) (x : Agent) :
    (s.setAgent a x).scrubPosition = s.scrubPosition := rfl
@[simp] theorem State.setAgent_scrubTimer (s : State) (a : AgentId) (x : Agent) :
    (s.setAgent a x).scrubTimer = s.scrubTimer := rfl
@[simp] theorem State.setAgent_scrubAhead (s : State) (a : AgentId) (x : Agent) :
    (s.setAgent a x).scrubAhead = s.scrubAhead := rfl
@[simp] theorem State.setAgent_storageBank (s : State) (a : AgentId) (x : Agent) :
    (s.setAgent a x).storageBank = s.storageBank := rfl
@[simp] theorem State.setAgent_recallBank (s : State) (a : AgentId) (x : Agent) :
    (s.setAgent a x).recallBank = s.recallBank := rfl
@[simp] theorem State.setAgent_linkBank (s : State) (a : AgentId) (x : Agent) :
    (s.setAgent a x).linkBank = s.linkBank := rfl
@[simp] theorem State.setEntry_pending (s : State) (e : EntryId) (x : PoolEntry) :
    (s.setEntry e x).pending = s.pending := rfl
@[simp] theorem State.setEntry_resetHeld (s : State) (e : EntryId) (x : PoolEntry) :
    (s.setEntry e x).resetHeld = s.resetHeld := rfl
@[simp] theorem State.setEntry_init (s : State) (e : EntryId) (x : PoolEntry) :
    (s.setEntry e x).init = s.init := rfl
@[simp] theorem State.setEntry_walkTicks (s : State) (e : EntryId) (x : PoolEntry) :
    (s.setEntry e x).walkTicks = s.walkTicks := rfl
@[simp] theorem State.setEntry_windows (s : State) (e : EntryId) (x : PoolEntry) :
    (s.setEntry e x).windows = s.windows := rfl
@[simp] theorem State.setEntry_grants (s : State) (e : EntryId) (x : PoolEntry) :
    (s.setEntry e x).grants = s.grants := rfl
@[simp] theorem State.setEntry_windowLists (s : State) (e : EntryId) (x : PoolEntry) :
    (s.setEntry e x).windowLists = s.windowLists := rfl
@[simp] theorem State.setEntry_contexts (s : State) (e : EntryId) (x : PoolEntry) :
    (s.setEntry e x).contexts = s.contexts := rfl
@[simp] theorem State.setEntry_agents (s : State) (e : EntryId) (x : PoolEntry) :
    (s.setEntry e x).agents = s.agents := rfl
@[simp] theorem State.setEntry_lastPort (s : State) (e : EntryId) (x : PoolEntry) :
    (s.setEntry e x).lastPort = s.lastPort := rfl
@[simp] theorem State.setEntry_parkOrders (s : State) (e : EntryId) (x : PoolEntry) :
    (s.setEntry e x).parkOrders = s.parkOrders := rfl
@[simp] theorem State.setEntry_replayList (s : State) (e : EntryId) (x : PoolEntry) :
    (s.setEntry e x).replayList = s.replayList := rfl
@[simp] theorem State.setEntry_slots (s : State) (e : EntryId) (x : PoolEntry) :
    (s.setEntry e x).slots = s.slots := rfl
@[simp] theorem State.setEntry_serial (s : State) (e : EntryId) (x : PoolEntry) :
    (s.setEntry e x).serial = s.serial := rfl
@[simp] theorem State.setEntry_purgeSet (s : State) (e : EntryId) (x : PoolEntry) :
    (s.setEntry e x).purgeSet = s.purgeSet := rfl
@[simp] theorem State.setEntry_walkPosition (s : State) (e : EntryId) (x : PoolEntry) :
    (s.setEntry e x).walkPosition = s.walkPosition := rfl
@[simp] theorem State.setEntry_ports (s : State) (e : EntryId) (x : PoolEntry) :
    (s.setEntry e x).ports = s.ports := rfl
@[simp] theorem State.setEntry_lanes (s : State) (e : EntryId) (x : PoolEntry) :
    (s.setEntry e x).lanes = s.lanes := rfl
@[simp] theorem State.setEntry_cmdQueue (s : State) (e : EntryId) (x : PoolEntry) :
    (s.setEntry e x).cmdQueue = s.cmdQueue := rfl
@[simp] theorem State.setEntry_completions (s : State) (e : EntryId) (x : PoolEntry) :
    (s.setEntry e x).completions = s.completions := rfl
@[simp] theorem State.setEntry_reservations (s : State) (e : EntryId) (x : PoolEntry) :
    (s.setEntry e x).reservations = s.reservations := rfl
@[simp] theorem State.setEntry_slotWait (s : State) (e : EntryId) (x : PoolEntry) :
    (s.setEntry e x).slotWait = s.slotWait := rfl
@[simp] theorem State.setEntry_fenceWait (s : State) (e : EntryId) (x : PoolEntry) :
    (s.setEntry e x).fenceWait = s.fenceWait := rfl
@[simp] theorem State.setEntry_staging (s : State) (e : EntryId) (x : PoolEntry) :
    (s.setEntry e x).staging = s.staging := rfl
@[simp] theorem State.setEntry_readPosition (s : State) (e : EntryId) (x : PoolEntry) :
    (s.setEntry e x).readPosition = s.readPosition := rfl
@[simp] theorem State.setEntry_readData (s : State) (e : EntryId) (x : PoolEntry) :
    (s.setEntry e x).readData = s.readData := rfl
@[simp] theorem State.setEntry_cmdOverrun (s : State) (e : EntryId) (x : PoolEntry) :
    (s.setEntry e x).cmdOverrun = s.cmdOverrun := rfl
@[simp] theorem State.setEntry_portChange (s : State) (e : EntryId) (x : PoolEntry) :
    (s.setEntry e x).portChange = s.portChange := rfl
@[simp] theorem State.setEntry_attnEnable (s : State) (e : EntryId) (x : PoolEntry) :
    (s.setEntry e x).attnEnable = s.attnEnable := rfl
@[simp] theorem State.setEntry_recallLimit (s : State) (e : EntryId) (x : PoolEntry) :
    (s.setEntry e x).recallLimit = s.recallLimit := rfl
@[simp] theorem State.setEntry_scrubInterval (s : State) (e : EntryId) (x : PoolEntry) :
    (s.setEntry e x).scrubInterval = s.scrubInterval := rfl
@[simp] theorem State.setEntry_scrubPosition (s : State) (e : EntryId) (x : PoolEntry) :
    (s.setEntry e x).scrubPosition = s.scrubPosition := rfl
@[simp] theorem State.setEntry_scrubTimer (s : State) (e : EntryId) (x : PoolEntry) :
    (s.setEntry e x).scrubTimer = s.scrubTimer := rfl
@[simp] theorem State.setEntry_scrubAhead (s : State) (e : EntryId) (x : PoolEntry) :
    (s.setEntry e x).scrubAhead = s.scrubAhead := rfl
@[simp] theorem State.setEntry_storageBank (s : State) (e : EntryId) (x : PoolEntry) :
    (s.setEntry e x).storageBank = s.storageBank := rfl
@[simp] theorem State.setEntry_recallBank (s : State) (e : EntryId) (x : PoolEntry) :
    (s.setEntry e x).recallBank = s.recallBank := rfl
@[simp] theorem State.setEntry_linkBank (s : State) (e : EntryId) (x : PoolEntry) :
    (s.setEntry e x).linkBank = s.linkBank := rfl
@[simp] theorem State.setParkOrder_pending (s : State) (w : WindowId) (x : List EntryId) :
    (s.setParkOrder w x).pending = s.pending := rfl
@[simp] theorem State.setParkOrder_resetHeld (s : State) (w : WindowId) (x : List EntryId) :
    (s.setParkOrder w x).resetHeld = s.resetHeld := rfl
@[simp] theorem State.setParkOrder_init (s : State) (w : WindowId) (x : List EntryId) :
    (s.setParkOrder w x).init = s.init := rfl
@[simp] theorem State.setParkOrder_walkTicks (s : State) (w : WindowId) (x : List EntryId) :
    (s.setParkOrder w x).walkTicks = s.walkTicks := rfl
@[simp] theorem State.setParkOrder_windows (s : State) (w : WindowId) (x : List EntryId) :
    (s.setParkOrder w x).windows = s.windows := rfl
@[simp] theorem State.setParkOrder_grants (s : State) (w : WindowId) (x : List EntryId) :
    (s.setParkOrder w x).grants = s.grants := rfl
@[simp] theorem State.setParkOrder_windowLists (s : State) (w : WindowId) (x : List EntryId) :
    (s.setParkOrder w x).windowLists = s.windowLists := rfl
@[simp] theorem State.setParkOrder_contexts (s : State) (w : WindowId) (x : List EntryId) :
    (s.setParkOrder w x).contexts = s.contexts := rfl
@[simp] theorem State.setParkOrder_agents (s : State) (w : WindowId) (x : List EntryId) :
    (s.setParkOrder w x).agents = s.agents := rfl
@[simp] theorem State.setParkOrder_lastPort (s : State) (w : WindowId) (x : List EntryId) :
    (s.setParkOrder w x).lastPort = s.lastPort := rfl
@[simp] theorem State.setParkOrder_pool (s : State) (w : WindowId) (x : List EntryId) :
    (s.setParkOrder w x).pool = s.pool := rfl
@[simp] theorem State.setParkOrder_replayList (s : State) (w : WindowId) (x : List EntryId) :
    (s.setParkOrder w x).replayList = s.replayList := rfl
@[simp] theorem State.setParkOrder_slots (s : State) (w : WindowId) (x : List EntryId) :
    (s.setParkOrder w x).slots = s.slots := rfl
@[simp] theorem State.setParkOrder_serial (s : State) (w : WindowId) (x : List EntryId) :
    (s.setParkOrder w x).serial = s.serial := rfl
@[simp] theorem State.setParkOrder_purgeSet (s : State) (w : WindowId) (x : List EntryId) :
    (s.setParkOrder w x).purgeSet = s.purgeSet := rfl
@[simp] theorem State.setParkOrder_walkPosition (s : State) (w : WindowId) (x : List EntryId) :
    (s.setParkOrder w x).walkPosition = s.walkPosition := rfl
@[simp] theorem State.setParkOrder_ports (s : State) (w : WindowId) (x : List EntryId) :
    (s.setParkOrder w x).ports = s.ports := rfl
@[simp] theorem State.setParkOrder_lanes (s : State) (w : WindowId) (x : List EntryId) :
    (s.setParkOrder w x).lanes = s.lanes := rfl
@[simp] theorem State.setParkOrder_cmdQueue (s : State) (w : WindowId) (x : List EntryId) :
    (s.setParkOrder w x).cmdQueue = s.cmdQueue := rfl
@[simp] theorem State.setParkOrder_completions (s : State) (w : WindowId) (x : List EntryId) :
    (s.setParkOrder w x).completions = s.completions := rfl
@[simp] theorem State.setParkOrder_reservations (s : State) (w : WindowId) (x : List EntryId) :
    (s.setParkOrder w x).reservations = s.reservations := rfl
@[simp] theorem State.setParkOrder_slotWait (s : State) (w : WindowId) (x : List EntryId) :
    (s.setParkOrder w x).slotWait = s.slotWait := rfl
@[simp] theorem State.setParkOrder_fenceWait (s : State) (w : WindowId) (x : List EntryId) :
    (s.setParkOrder w x).fenceWait = s.fenceWait := rfl
@[simp] theorem State.setParkOrder_staging (s : State) (w : WindowId) (x : List EntryId) :
    (s.setParkOrder w x).staging = s.staging := rfl
@[simp] theorem State.setParkOrder_readPosition (s : State) (w : WindowId) (x : List EntryId) :
    (s.setParkOrder w x).readPosition = s.readPosition := rfl
@[simp] theorem State.setParkOrder_readData (s : State) (w : WindowId) (x : List EntryId) :
    (s.setParkOrder w x).readData = s.readData := rfl
@[simp] theorem State.setParkOrder_cmdOverrun (s : State) (w : WindowId) (x : List EntryId) :
    (s.setParkOrder w x).cmdOverrun = s.cmdOverrun := rfl
@[simp] theorem State.setParkOrder_portChange (s : State) (w : WindowId) (x : List EntryId) :
    (s.setParkOrder w x).portChange = s.portChange := rfl
@[simp] theorem State.setParkOrder_attnEnable (s : State) (w : WindowId) (x : List EntryId) :
    (s.setParkOrder w x).attnEnable = s.attnEnable := rfl
@[simp] theorem State.setParkOrder_recallLimit (s : State) (w : WindowId) (x : List EntryId) :
    (s.setParkOrder w x).recallLimit = s.recallLimit := rfl
@[simp] theorem State.setParkOrder_scrubInterval (s : State) (w : WindowId) (x : List EntryId) :
    (s.setParkOrder w x).scrubInterval = s.scrubInterval := rfl
@[simp] theorem State.setParkOrder_scrubPosition (s : State) (w : WindowId) (x : List EntryId) :
    (s.setParkOrder w x).scrubPosition = s.scrubPosition := rfl
@[simp] theorem State.setParkOrder_scrubTimer (s : State) (w : WindowId) (x : List EntryId) :
    (s.setParkOrder w x).scrubTimer = s.scrubTimer := rfl
@[simp] theorem State.setParkOrder_scrubAhead (s : State) (w : WindowId) (x : List EntryId) :
    (s.setParkOrder w x).scrubAhead = s.scrubAhead := rfl
@[simp] theorem State.setParkOrder_storageBank (s : State) (w : WindowId) (x : List EntryId) :
    (s.setParkOrder w x).storageBank = s.storageBank := rfl
@[simp] theorem State.setParkOrder_recallBank (s : State) (w : WindowId) (x : List EntryId) :
    (s.setParkOrder w x).recallBank = s.recallBank := rfl
@[simp] theorem State.setParkOrder_linkBank (s : State) (w : WindowId) (x : List EntryId) :
    (s.setParkOrder w x).linkBank = s.linkBank := rfl
@[simp] theorem State.setSlot_pending (s : State) (k : SlotId) (x : Slot) :
    (s.setSlot k x).pending = s.pending := rfl
@[simp] theorem State.setSlot_resetHeld (s : State) (k : SlotId) (x : Slot) :
    (s.setSlot k x).resetHeld = s.resetHeld := rfl
@[simp] theorem State.setSlot_init (s : State) (k : SlotId) (x : Slot) :
    (s.setSlot k x).init = s.init := rfl
@[simp] theorem State.setSlot_walkTicks (s : State) (k : SlotId) (x : Slot) :
    (s.setSlot k x).walkTicks = s.walkTicks := rfl
@[simp] theorem State.setSlot_windows (s : State) (k : SlotId) (x : Slot) :
    (s.setSlot k x).windows = s.windows := rfl
@[simp] theorem State.setSlot_grants (s : State) (k : SlotId) (x : Slot) :
    (s.setSlot k x).grants = s.grants := rfl
@[simp] theorem State.setSlot_windowLists (s : State) (k : SlotId) (x : Slot) :
    (s.setSlot k x).windowLists = s.windowLists := rfl
@[simp] theorem State.setSlot_contexts (s : State) (k : SlotId) (x : Slot) :
    (s.setSlot k x).contexts = s.contexts := rfl
@[simp] theorem State.setSlot_agents (s : State) (k : SlotId) (x : Slot) :
    (s.setSlot k x).agents = s.agents := rfl
@[simp] theorem State.setSlot_lastPort (s : State) (k : SlotId) (x : Slot) :
    (s.setSlot k x).lastPort = s.lastPort := rfl
@[simp] theorem State.setSlot_pool (s : State) (k : SlotId) (x : Slot) :
    (s.setSlot k x).pool = s.pool := rfl
@[simp] theorem State.setSlot_parkOrders (s : State) (k : SlotId) (x : Slot) :
    (s.setSlot k x).parkOrders = s.parkOrders := rfl
@[simp] theorem State.setSlot_replayList (s : State) (k : SlotId) (x : Slot) :
    (s.setSlot k x).replayList = s.replayList := rfl
@[simp] theorem State.setSlot_serial (s : State) (k : SlotId) (x : Slot) :
    (s.setSlot k x).serial = s.serial := rfl
@[simp] theorem State.setSlot_purgeSet (s : State) (k : SlotId) (x : Slot) :
    (s.setSlot k x).purgeSet = s.purgeSet := rfl
@[simp] theorem State.setSlot_walkPosition (s : State) (k : SlotId) (x : Slot) :
    (s.setSlot k x).walkPosition = s.walkPosition := rfl
@[simp] theorem State.setSlot_ports (s : State) (k : SlotId) (x : Slot) :
    (s.setSlot k x).ports = s.ports := rfl
@[simp] theorem State.setSlot_lanes (s : State) (k : SlotId) (x : Slot) :
    (s.setSlot k x).lanes = s.lanes := rfl
@[simp] theorem State.setSlot_cmdQueue (s : State) (k : SlotId) (x : Slot) :
    (s.setSlot k x).cmdQueue = s.cmdQueue := rfl
@[simp] theorem State.setSlot_completions (s : State) (k : SlotId) (x : Slot) :
    (s.setSlot k x).completions = s.completions := rfl
@[simp] theorem State.setSlot_reservations (s : State) (k : SlotId) (x : Slot) :
    (s.setSlot k x).reservations = s.reservations := rfl
@[simp] theorem State.setSlot_slotWait (s : State) (k : SlotId) (x : Slot) :
    (s.setSlot k x).slotWait = s.slotWait := rfl
@[simp] theorem State.setSlot_fenceWait (s : State) (k : SlotId) (x : Slot) :
    (s.setSlot k x).fenceWait = s.fenceWait := rfl
@[simp] theorem State.setSlot_staging (s : State) (k : SlotId) (x : Slot) :
    (s.setSlot k x).staging = s.staging := rfl
@[simp] theorem State.setSlot_readPosition (s : State) (k : SlotId) (x : Slot) :
    (s.setSlot k x).readPosition = s.readPosition := rfl
@[simp] theorem State.setSlot_readData (s : State) (k : SlotId) (x : Slot) :
    (s.setSlot k x).readData = s.readData := rfl
@[simp] theorem State.setSlot_cmdOverrun (s : State) (k : SlotId) (x : Slot) :
    (s.setSlot k x).cmdOverrun = s.cmdOverrun := rfl
@[simp] theorem State.setSlot_portChange (s : State) (k : SlotId) (x : Slot) :
    (s.setSlot k x).portChange = s.portChange := rfl
@[simp] theorem State.setSlot_attnEnable (s : State) (k : SlotId) (x : Slot) :
    (s.setSlot k x).attnEnable = s.attnEnable := rfl
@[simp] theorem State.setSlot_recallLimit (s : State) (k : SlotId) (x : Slot) :
    (s.setSlot k x).recallLimit = s.recallLimit := rfl
@[simp] theorem State.setSlot_scrubInterval (s : State) (k : SlotId) (x : Slot) :
    (s.setSlot k x).scrubInterval = s.scrubInterval := rfl
@[simp] theorem State.setSlot_scrubPosition (s : State) (k : SlotId) (x : Slot) :
    (s.setSlot k x).scrubPosition = s.scrubPosition := rfl
@[simp] theorem State.setSlot_scrubTimer (s : State) (k : SlotId) (x : Slot) :
    (s.setSlot k x).scrubTimer = s.scrubTimer := rfl
@[simp] theorem State.setSlot_scrubAhead (s : State) (k : SlotId) (x : Slot) :
    (s.setSlot k x).scrubAhead = s.scrubAhead := rfl
@[simp] theorem State.setSlot_storageBank (s : State) (k : SlotId) (x : Slot) :
    (s.setSlot k x).storageBank = s.storageBank := rfl
@[simp] theorem State.setSlot_recallBank (s : State) (k : SlotId) (x : Slot) :
    (s.setSlot k x).recallBank = s.recallBank := rfl
@[simp] theorem State.setSlot_linkBank (s : State) (k : SlotId) (x : Slot) :
    (s.setSlot k x).linkBank = s.linkBank := rfl
@[simp] theorem State.setPort_pending (s : State) (p : PortId) (x : Port) :
    (s.setPort p x).pending = s.pending := rfl
@[simp] theorem State.setPort_resetHeld (s : State) (p : PortId) (x : Port) :
    (s.setPort p x).resetHeld = s.resetHeld := rfl
@[simp] theorem State.setPort_init (s : State) (p : PortId) (x : Port) :
    (s.setPort p x).init = s.init := rfl
@[simp] theorem State.setPort_walkTicks (s : State) (p : PortId) (x : Port) :
    (s.setPort p x).walkTicks = s.walkTicks := rfl
@[simp] theorem State.setPort_windows (s : State) (p : PortId) (x : Port) :
    (s.setPort p x).windows = s.windows := rfl
@[simp] theorem State.setPort_grants (s : State) (p : PortId) (x : Port) :
    (s.setPort p x).grants = s.grants := rfl
@[simp] theorem State.setPort_windowLists (s : State) (p : PortId) (x : Port) :
    (s.setPort p x).windowLists = s.windowLists := rfl
@[simp] theorem State.setPort_contexts (s : State) (p : PortId) (x : Port) :
    (s.setPort p x).contexts = s.contexts := rfl
@[simp] theorem State.setPort_agents (s : State) (p : PortId) (x : Port) :
    (s.setPort p x).agents = s.agents := rfl
@[simp] theorem State.setPort_lastPort (s : State) (p : PortId) (x : Port) :
    (s.setPort p x).lastPort = s.lastPort := rfl
@[simp] theorem State.setPort_pool (s : State) (p : PortId) (x : Port) :
    (s.setPort p x).pool = s.pool := rfl
@[simp] theorem State.setPort_parkOrders (s : State) (p : PortId) (x : Port) :
    (s.setPort p x).parkOrders = s.parkOrders := rfl
@[simp] theorem State.setPort_replayList (s : State) (p : PortId) (x : Port) :
    (s.setPort p x).replayList = s.replayList := rfl
@[simp] theorem State.setPort_slots (s : State) (p : PortId) (x : Port) :
    (s.setPort p x).slots = s.slots := rfl
@[simp] theorem State.setPort_serial (s : State) (p : PortId) (x : Port) :
    (s.setPort p x).serial = s.serial := rfl
@[simp] theorem State.setPort_purgeSet (s : State) (p : PortId) (x : Port) :
    (s.setPort p x).purgeSet = s.purgeSet := rfl
@[simp] theorem State.setPort_walkPosition (s : State) (p : PortId) (x : Port) :
    (s.setPort p x).walkPosition = s.walkPosition := rfl
@[simp] theorem State.setPort_lanes (s : State) (p : PortId) (x : Port) :
    (s.setPort p x).lanes = s.lanes := rfl
@[simp] theorem State.setPort_cmdQueue (s : State) (p : PortId) (x : Port) :
    (s.setPort p x).cmdQueue = s.cmdQueue := rfl
@[simp] theorem State.setPort_completions (s : State) (p : PortId) (x : Port) :
    (s.setPort p x).completions = s.completions := rfl
@[simp] theorem State.setPort_reservations (s : State) (p : PortId) (x : Port) :
    (s.setPort p x).reservations = s.reservations := rfl
@[simp] theorem State.setPort_slotWait (s : State) (p : PortId) (x : Port) :
    (s.setPort p x).slotWait = s.slotWait := rfl
@[simp] theorem State.setPort_fenceWait (s : State) (p : PortId) (x : Port) :
    (s.setPort p x).fenceWait = s.fenceWait := rfl
@[simp] theorem State.setPort_staging (s : State) (p : PortId) (x : Port) :
    (s.setPort p x).staging = s.staging := rfl
@[simp] theorem State.setPort_readPosition (s : State) (p : PortId) (x : Port) :
    (s.setPort p x).readPosition = s.readPosition := rfl
@[simp] theorem State.setPort_readData (s : State) (p : PortId) (x : Port) :
    (s.setPort p x).readData = s.readData := rfl
@[simp] theorem State.setPort_cmdOverrun (s : State) (p : PortId) (x : Port) :
    (s.setPort p x).cmdOverrun = s.cmdOverrun := rfl
@[simp] theorem State.setPort_portChange (s : State) (p : PortId) (x : Port) :
    (s.setPort p x).portChange = s.portChange := rfl
@[simp] theorem State.setPort_attnEnable (s : State) (p : PortId) (x : Port) :
    (s.setPort p x).attnEnable = s.attnEnable := rfl
@[simp] theorem State.setPort_recallLimit (s : State) (p : PortId) (x : Port) :
    (s.setPort p x).recallLimit = s.recallLimit := rfl
@[simp] theorem State.setPort_scrubInterval (s : State) (p : PortId) (x : Port) :
    (s.setPort p x).scrubInterval = s.scrubInterval := rfl
@[simp] theorem State.setPort_scrubPosition (s : State) (p : PortId) (x : Port) :
    (s.setPort p x).scrubPosition = s.scrubPosition := rfl
@[simp] theorem State.setPort_scrubTimer (s : State) (p : PortId) (x : Port) :
    (s.setPort p x).scrubTimer = s.scrubTimer := rfl
@[simp] theorem State.setPort_scrubAhead (s : State) (p : PortId) (x : Port) :
    (s.setPort p x).scrubAhead = s.scrubAhead := rfl
@[simp] theorem State.setPort_storageBank (s : State) (p : PortId) (x : Port) :
    (s.setPort p x).storageBank = s.storageBank := rfl
@[simp] theorem State.setPort_recallBank (s : State) (p : PortId) (x : Port) :
    (s.setPort p x).recallBank = s.recallBank := rfl
@[simp] theorem State.setPort_linkBank (s : State) (p : PortId) (x : Port) :
    (s.setPort p x).linkBank = s.linkBank := rfl
@[simp] theorem State.setLane_pending (s : State) (p : PortId) (x : Frame) :
    (s.setLane p x).pending = s.pending := rfl
@[simp] theorem State.setLane_resetHeld (s : State) (p : PortId) (x : Frame) :
    (s.setLane p x).resetHeld = s.resetHeld := rfl
@[simp] theorem State.setLane_init (s : State) (p : PortId) (x : Frame) :
    (s.setLane p x).init = s.init := rfl
@[simp] theorem State.setLane_walkTicks (s : State) (p : PortId) (x : Frame) :
    (s.setLane p x).walkTicks = s.walkTicks := rfl
@[simp] theorem State.setLane_windows (s : State) (p : PortId) (x : Frame) :
    (s.setLane p x).windows = s.windows := rfl
@[simp] theorem State.setLane_grants (s : State) (p : PortId) (x : Frame) :
    (s.setLane p x).grants = s.grants := rfl
@[simp] theorem State.setLane_windowLists (s : State) (p : PortId) (x : Frame) :
    (s.setLane p x).windowLists = s.windowLists := rfl
@[simp] theorem State.setLane_contexts (s : State) (p : PortId) (x : Frame) :
    (s.setLane p x).contexts = s.contexts := rfl
@[simp] theorem State.setLane_agents (s : State) (p : PortId) (x : Frame) :
    (s.setLane p x).agents = s.agents := rfl
@[simp] theorem State.setLane_lastPort (s : State) (p : PortId) (x : Frame) :
    (s.setLane p x).lastPort = s.lastPort := rfl
@[simp] theorem State.setLane_pool (s : State) (p : PortId) (x : Frame) :
    (s.setLane p x).pool = s.pool := rfl
@[simp] theorem State.setLane_parkOrders (s : State) (p : PortId) (x : Frame) :
    (s.setLane p x).parkOrders = s.parkOrders := rfl
@[simp] theorem State.setLane_replayList (s : State) (p : PortId) (x : Frame) :
    (s.setLane p x).replayList = s.replayList := rfl
@[simp] theorem State.setLane_slots (s : State) (p : PortId) (x : Frame) :
    (s.setLane p x).slots = s.slots := rfl
@[simp] theorem State.setLane_serial (s : State) (p : PortId) (x : Frame) :
    (s.setLane p x).serial = s.serial := rfl
@[simp] theorem State.setLane_purgeSet (s : State) (p : PortId) (x : Frame) :
    (s.setLane p x).purgeSet = s.purgeSet := rfl
@[simp] theorem State.setLane_walkPosition (s : State) (p : PortId) (x : Frame) :
    (s.setLane p x).walkPosition = s.walkPosition := rfl
@[simp] theorem State.setLane_ports (s : State) (p : PortId) (x : Frame) :
    (s.setLane p x).ports = s.ports := rfl
@[simp] theorem State.setLane_cmdQueue (s : State) (p : PortId) (x : Frame) :
    (s.setLane p x).cmdQueue = s.cmdQueue := rfl
@[simp] theorem State.setLane_completions (s : State) (p : PortId) (x : Frame) :
    (s.setLane p x).completions = s.completions := rfl
@[simp] theorem State.setLane_reservations (s : State) (p : PortId) (x : Frame) :
    (s.setLane p x).reservations = s.reservations := rfl
@[simp] theorem State.setLane_slotWait (s : State) (p : PortId) (x : Frame) :
    (s.setLane p x).slotWait = s.slotWait := rfl
@[simp] theorem State.setLane_fenceWait (s : State) (p : PortId) (x : Frame) :
    (s.setLane p x).fenceWait = s.fenceWait := rfl
@[simp] theorem State.setLane_staging (s : State) (p : PortId) (x : Frame) :
    (s.setLane p x).staging = s.staging := rfl
@[simp] theorem State.setLane_readPosition (s : State) (p : PortId) (x : Frame) :
    (s.setLane p x).readPosition = s.readPosition := rfl
@[simp] theorem State.setLane_readData (s : State) (p : PortId) (x : Frame) :
    (s.setLane p x).readData = s.readData := rfl
@[simp] theorem State.setLane_cmdOverrun (s : State) (p : PortId) (x : Frame) :
    (s.setLane p x).cmdOverrun = s.cmdOverrun := rfl
@[simp] theorem State.setLane_portChange (s : State) (p : PortId) (x : Frame) :
    (s.setLane p x).portChange = s.portChange := rfl
@[simp] theorem State.setLane_attnEnable (s : State) (p : PortId) (x : Frame) :
    (s.setLane p x).attnEnable = s.attnEnable := rfl
@[simp] theorem State.setLane_recallLimit (s : State) (p : PortId) (x : Frame) :
    (s.setLane p x).recallLimit = s.recallLimit := rfl
@[simp] theorem State.setLane_scrubInterval (s : State) (p : PortId) (x : Frame) :
    (s.setLane p x).scrubInterval = s.scrubInterval := rfl
@[simp] theorem State.setLane_scrubPosition (s : State) (p : PortId) (x : Frame) :
    (s.setLane p x).scrubPosition = s.scrubPosition := rfl
@[simp] theorem State.setLane_scrubTimer (s : State) (p : PortId) (x : Frame) :
    (s.setLane p x).scrubTimer = s.scrubTimer := rfl
@[simp] theorem State.setLane_scrubAhead (s : State) (p : PortId) (x : Frame) :
    (s.setLane p x).scrubAhead = s.scrubAhead := rfl
@[simp] theorem State.setLane_storageBank (s : State) (p : PortId) (x : Frame) :
    (s.setLane p x).storageBank = s.storageBank := rfl
@[simp] theorem State.setLane_recallBank (s : State) (p : PortId) (x : Frame) :
    (s.setLane p x).recallBank = s.recallBank := rfl
@[simp] theorem State.setLane_linkBank (s : State) (p : PortId) (x : Frame) :
    (s.setLane p x).linkBank = s.linkBank := rfl
/-! ## Tables -/

@[simp] theorem State.setWindow_window (s : State) (i j : WindowId) (x : Window) :
    (s.setWindow i x).window j = if j = i then x else s.window j := tableGet_tableSet _ _ i j x
@[simp] theorem State.setWindow_word (s : State) (w : WindowId) (x : Window) (w' : WindowId) :
    (s.setWindow w x).word w' = s.word w' := rfl
@[simp] theorem State.setWindow_windowList (s : State) (w : WindowId) (x : Window) (c : ContextId) :
    (s.setWindow w x).windowList c = s.windowList c := rfl
@[simp] theorem State.setWindow_context (s : State) (w : WindowId) (x : Window) (c : ContextId) :
    (s.setWindow w x).context c = s.context c := rfl
@[simp] theorem State.setWindow_agent (s : State) (w : WindowId) (x : Window) (a : AgentId) :
    (s.setWindow w x).agent a = s.agent a := rfl
@[simp] theorem State.setWindow_entry (s : State) (w : WindowId) (x : Window) (e : EntryId) :
    (s.setWindow w x).entry e = s.entry e := rfl
@[simp] theorem State.setWindow_parkOrder (s : State) (w : WindowId) (x : Window) (w' : WindowId) :
    (s.setWindow w x).parkOrder w' = s.parkOrder w' := rfl
@[simp] theorem State.setWindow_slot (s : State) (w : WindowId) (x : Window) (k : SlotId) :
    (s.setWindow w x).slot k = s.slot k := rfl
@[simp] theorem State.setWindow_port (s : State) (w : WindowId) (x : Window) (p : PortId) :
    (s.setWindow w x).port p = s.port p := rfl
@[simp] theorem State.setWindow_lane (s : State) (w : WindowId) (x : Window) (p : PortId) :
    (s.setWindow w x).lane p = s.lane p := rfl
@[simp] theorem State.setWord_word (s : State) (i j : WindowId) (x : CodeWord) :
    (s.setWord i x).word j = if j = i then x else s.word j := tableGet_tableSet _ _ i j x
@[simp] theorem State.setWord_window (s : State) (w : WindowId) (x : CodeWord) (w' : WindowId) :
    (s.setWord w x).window w' = s.window w' := rfl
@[simp] theorem State.setWord_windowList (s : State) (w : WindowId) (x : CodeWord) (c : ContextId) :
    (s.setWord w x).windowList c = s.windowList c := rfl
@[simp] theorem State.setWord_context (s : State) (w : WindowId) (x : CodeWord) (c : ContextId) :
    (s.setWord w x).context c = s.context c := rfl
@[simp] theorem State.setWord_agent (s : State) (w : WindowId) (x : CodeWord) (a : AgentId) :
    (s.setWord w x).agent a = s.agent a := rfl
@[simp] theorem State.setWord_entry (s : State) (w : WindowId) (x : CodeWord) (e : EntryId) :
    (s.setWord w x).entry e = s.entry e := rfl
@[simp] theorem State.setWord_parkOrder (s : State) (w : WindowId) (x : CodeWord) (w' : WindowId) :
    (s.setWord w x).parkOrder w' = s.parkOrder w' := rfl
@[simp] theorem State.setWord_slot (s : State) (w : WindowId) (x : CodeWord) (k : SlotId) :
    (s.setWord w x).slot k = s.slot k := rfl
@[simp] theorem State.setWord_port (s : State) (w : WindowId) (x : CodeWord) (p : PortId) :
    (s.setWord w x).port p = s.port p := rfl
@[simp] theorem State.setWord_lane (s : State) (w : WindowId) (x : CodeWord) (p : PortId) :
    (s.setWord w x).lane p = s.lane p := rfl
@[simp] theorem State.setWindowList_windowList (s : State) (i j : ContextId) (x : List WindowId) :
    (s.setWindowList i x).windowList j = if j = i then x else s.windowList j := tableGet_tableSet _ _ i j x
@[simp] theorem State.setWindowList_window (s : State) (c : ContextId) (x : List WindowId) (w : WindowId) :
    (s.setWindowList c x).window w = s.window w := rfl
@[simp] theorem State.setWindowList_word (s : State) (c : ContextId) (x : List WindowId) (w : WindowId) :
    (s.setWindowList c x).word w = s.word w := rfl
@[simp] theorem State.setWindowList_context (s : State) (c : ContextId) (x : List WindowId) (c' : ContextId) :
    (s.setWindowList c x).context c' = s.context c' := rfl
@[simp] theorem State.setWindowList_agent (s : State) (c : ContextId) (x : List WindowId) (a : AgentId) :
    (s.setWindowList c x).agent a = s.agent a := rfl
@[simp] theorem State.setWindowList_entry (s : State) (c : ContextId) (x : List WindowId) (e : EntryId) :
    (s.setWindowList c x).entry e = s.entry e := rfl
@[simp] theorem State.setWindowList_parkOrder (s : State) (c : ContextId) (x : List WindowId) (w : WindowId) :
    (s.setWindowList c x).parkOrder w = s.parkOrder w := rfl
@[simp] theorem State.setWindowList_slot (s : State) (c : ContextId) (x : List WindowId) (k : SlotId) :
    (s.setWindowList c x).slot k = s.slot k := rfl
@[simp] theorem State.setWindowList_port (s : State) (c : ContextId) (x : List WindowId) (p : PortId) :
    (s.setWindowList c x).port p = s.port p := rfl
@[simp] theorem State.setWindowList_lane (s : State) (c : ContextId) (x : List WindowId) (p : PortId) :
    (s.setWindowList c x).lane p = s.lane p := rfl
@[simp] theorem State.setContext_context (s : State) (i j : ContextId) (x : Context) :
    (s.setContext i x).context j = if j = i then x else s.context j := tableGet_tableSet _ _ i j x
@[simp] theorem State.setContext_window (s : State) (c : ContextId) (x : Context) (w : WindowId) :
    (s.setContext c x).window w = s.window w := rfl
@[simp] theorem State.setContext_word (s : State) (c : ContextId) (x : Context) (w : WindowId) :
    (s.setContext c x).word w = s.word w := rfl
@[simp] theorem State.setContext_windowList (s : State) (c : ContextId) (x : Context) (c' : ContextId) :
    (s.setContext c x).windowList c' = s.windowList c' := rfl
@[simp] theorem State.setContext_agent (s : State) (c : ContextId) (x : Context) (a : AgentId) :
    (s.setContext c x).agent a = s.agent a := rfl
@[simp] theorem State.setContext_entry (s : State) (c : ContextId) (x : Context) (e : EntryId) :
    (s.setContext c x).entry e = s.entry e := rfl
@[simp] theorem State.setContext_parkOrder (s : State) (c : ContextId) (x : Context) (w : WindowId) :
    (s.setContext c x).parkOrder w = s.parkOrder w := rfl
@[simp] theorem State.setContext_slot (s : State) (c : ContextId) (x : Context) (k : SlotId) :
    (s.setContext c x).slot k = s.slot k := rfl
@[simp] theorem State.setContext_port (s : State) (c : ContextId) (x : Context) (p : PortId) :
    (s.setContext c x).port p = s.port p := rfl
@[simp] theorem State.setContext_lane (s : State) (c : ContextId) (x : Context) (p : PortId) :
    (s.setContext c x).lane p = s.lane p := rfl
@[simp] theorem State.setAgent_agent (s : State) (i j : AgentId) (x : Agent) :
    (s.setAgent i x).agent j = if j = i then x else s.agent j := tableGet_tableSet _ _ i j x
@[simp] theorem State.setAgent_window (s : State) (a : AgentId) (x : Agent) (w : WindowId) :
    (s.setAgent a x).window w = s.window w := rfl
@[simp] theorem State.setAgent_word (s : State) (a : AgentId) (x : Agent) (w : WindowId) :
    (s.setAgent a x).word w = s.word w := rfl
@[simp] theorem State.setAgent_windowList (s : State) (a : AgentId) (x : Agent) (c : ContextId) :
    (s.setAgent a x).windowList c = s.windowList c := rfl
@[simp] theorem State.setAgent_context (s : State) (a : AgentId) (x : Agent) (c : ContextId) :
    (s.setAgent a x).context c = s.context c := rfl
@[simp] theorem State.setAgent_entry (s : State) (a : AgentId) (x : Agent) (e : EntryId) :
    (s.setAgent a x).entry e = s.entry e := rfl
@[simp] theorem State.setAgent_parkOrder (s : State) (a : AgentId) (x : Agent) (w : WindowId) :
    (s.setAgent a x).parkOrder w = s.parkOrder w := rfl
@[simp] theorem State.setAgent_slot (s : State) (a : AgentId) (x : Agent) (k : SlotId) :
    (s.setAgent a x).slot k = s.slot k := rfl
@[simp] theorem State.setAgent_port (s : State) (a : AgentId) (x : Agent) (p : PortId) :
    (s.setAgent a x).port p = s.port p := rfl
@[simp] theorem State.setAgent_lane (s : State) (a : AgentId) (x : Agent) (p : PortId) :
    (s.setAgent a x).lane p = s.lane p := rfl
@[simp] theorem State.setEntry_entry (s : State) (i j : EntryId) (x : PoolEntry) :
    (s.setEntry i x).entry j = if j = i then x else s.entry j := tableGet_tableSet _ _ i j x
@[simp] theorem State.setEntry_window (s : State) (e : EntryId) (x : PoolEntry) (w : WindowId) :
    (s.setEntry e x).window w = s.window w := rfl
@[simp] theorem State.setEntry_word (s : State) (e : EntryId) (x : PoolEntry) (w : WindowId) :
    (s.setEntry e x).word w = s.word w := rfl
@[simp] theorem State.setEntry_windowList (s : State) (e : EntryId) (x : PoolEntry) (c : ContextId) :
    (s.setEntry e x).windowList c = s.windowList c := rfl
@[simp] theorem State.setEntry_context (s : State) (e : EntryId) (x : PoolEntry) (c : ContextId) :
    (s.setEntry e x).context c = s.context c := rfl
@[simp] theorem State.setEntry_agent (s : State) (e : EntryId) (x : PoolEntry) (a : AgentId) :
    (s.setEntry e x).agent a = s.agent a := rfl
@[simp] theorem State.setEntry_parkOrder (s : State) (e : EntryId) (x : PoolEntry) (w : WindowId) :
    (s.setEntry e x).parkOrder w = s.parkOrder w := rfl
@[simp] theorem State.setEntry_slot (s : State) (e : EntryId) (x : PoolEntry) (k : SlotId) :
    (s.setEntry e x).slot k = s.slot k := rfl
@[simp] theorem State.setEntry_port (s : State) (e : EntryId) (x : PoolEntry) (p : PortId) :
    (s.setEntry e x).port p = s.port p := rfl
@[simp] theorem State.setEntry_lane (s : State) (e : EntryId) (x : PoolEntry) (p : PortId) :
    (s.setEntry e x).lane p = s.lane p := rfl
@[simp] theorem State.setParkOrder_parkOrder (s : State) (i j : WindowId) (x : List EntryId) :
    (s.setParkOrder i x).parkOrder j = if j = i then x else s.parkOrder j := tableGet_tableSet _ _ i j x
@[simp] theorem State.setParkOrder_window (s : State) (w : WindowId) (x : List EntryId) (w' : WindowId) :
    (s.setParkOrder w x).window w' = s.window w' := rfl
@[simp] theorem State.setParkOrder_word (s : State) (w : WindowId) (x : List EntryId) (w' : WindowId) :
    (s.setParkOrder w x).word w' = s.word w' := rfl
@[simp] theorem State.setParkOrder_windowList (s : State) (w : WindowId) (x : List EntryId) (c : ContextId) :
    (s.setParkOrder w x).windowList c = s.windowList c := rfl
@[simp] theorem State.setParkOrder_context (s : State) (w : WindowId) (x : List EntryId) (c : ContextId) :
    (s.setParkOrder w x).context c = s.context c := rfl
@[simp] theorem State.setParkOrder_agent (s : State) (w : WindowId) (x : List EntryId) (a : AgentId) :
    (s.setParkOrder w x).agent a = s.agent a := rfl
@[simp] theorem State.setParkOrder_entry (s : State) (w : WindowId) (x : List EntryId) (e : EntryId) :
    (s.setParkOrder w x).entry e = s.entry e := rfl
@[simp] theorem State.setParkOrder_slot (s : State) (w : WindowId) (x : List EntryId) (k : SlotId) :
    (s.setParkOrder w x).slot k = s.slot k := rfl
@[simp] theorem State.setParkOrder_port (s : State) (w : WindowId) (x : List EntryId) (p : PortId) :
    (s.setParkOrder w x).port p = s.port p := rfl
@[simp] theorem State.setParkOrder_lane (s : State) (w : WindowId) (x : List EntryId) (p : PortId) :
    (s.setParkOrder w x).lane p = s.lane p := rfl
@[simp] theorem State.setSlot_slot (s : State) (i j : SlotId) (x : Slot) :
    (s.setSlot i x).slot j = if j = i then x else s.slot j := tableGet_tableSet _ _ i j x
@[simp] theorem State.setSlot_window (s : State) (k : SlotId) (x : Slot) (w : WindowId) :
    (s.setSlot k x).window w = s.window w := rfl
@[simp] theorem State.setSlot_word (s : State) (k : SlotId) (x : Slot) (w : WindowId) :
    (s.setSlot k x).word w = s.word w := rfl
@[simp] theorem State.setSlot_windowList (s : State) (k : SlotId) (x : Slot) (c : ContextId) :
    (s.setSlot k x).windowList c = s.windowList c := rfl
@[simp] theorem State.setSlot_context (s : State) (k : SlotId) (x : Slot) (c : ContextId) :
    (s.setSlot k x).context c = s.context c := rfl
@[simp] theorem State.setSlot_agent (s : State) (k : SlotId) (x : Slot) (a : AgentId) :
    (s.setSlot k x).agent a = s.agent a := rfl
@[simp] theorem State.setSlot_entry (s : State) (k : SlotId) (x : Slot) (e : EntryId) :
    (s.setSlot k x).entry e = s.entry e := rfl
@[simp] theorem State.setSlot_parkOrder (s : State) (k : SlotId) (x : Slot) (w : WindowId) :
    (s.setSlot k x).parkOrder w = s.parkOrder w := rfl
@[simp] theorem State.setSlot_port (s : State) (k : SlotId) (x : Slot) (p : PortId) :
    (s.setSlot k x).port p = s.port p := rfl
@[simp] theorem State.setSlot_lane (s : State) (k : SlotId) (x : Slot) (p : PortId) :
    (s.setSlot k x).lane p = s.lane p := rfl
@[simp] theorem State.setPort_port (s : State) (i j : PortId) (x : Port) :
    (s.setPort i x).port j = if j = i then x else s.port j := tableGet_tableSet _ _ i j x
@[simp] theorem State.setPort_window (s : State) (p : PortId) (x : Port) (w : WindowId) :
    (s.setPort p x).window w = s.window w := rfl
@[simp] theorem State.setPort_word (s : State) (p : PortId) (x : Port) (w : WindowId) :
    (s.setPort p x).word w = s.word w := rfl
@[simp] theorem State.setPort_windowList (s : State) (p : PortId) (x : Port) (c : ContextId) :
    (s.setPort p x).windowList c = s.windowList c := rfl
@[simp] theorem State.setPort_context (s : State) (p : PortId) (x : Port) (c : ContextId) :
    (s.setPort p x).context c = s.context c := rfl
@[simp] theorem State.setPort_agent (s : State) (p : PortId) (x : Port) (a : AgentId) :
    (s.setPort p x).agent a = s.agent a := rfl
@[simp] theorem State.setPort_entry (s : State) (p : PortId) (x : Port) (e : EntryId) :
    (s.setPort p x).entry e = s.entry e := rfl
@[simp] theorem State.setPort_parkOrder (s : State) (p : PortId) (x : Port) (w : WindowId) :
    (s.setPort p x).parkOrder w = s.parkOrder w := rfl
@[simp] theorem State.setPort_slot (s : State) (p : PortId) (x : Port) (k : SlotId) :
    (s.setPort p x).slot k = s.slot k := rfl
@[simp] theorem State.setPort_lane (s : State) (p : PortId) (x : Port) (p' : PortId) :
    (s.setPort p x).lane p' = s.lane p' := rfl
@[simp] theorem State.setLane_lane (s : State) (i j : PortId) (x : Frame) :
    (s.setLane i x).lane j = if j = i then x else s.lane j := tableGet_tableSet _ _ i j x
@[simp] theorem State.setLane_window (s : State) (p : PortId) (x : Frame) (w : WindowId) :
    (s.setLane p x).window w = s.window w := rfl
@[simp] theorem State.setLane_word (s : State) (p : PortId) (x : Frame) (w : WindowId) :
    (s.setLane p x).word w = s.word w := rfl
@[simp] theorem State.setLane_windowList (s : State) (p : PortId) (x : Frame) (c : ContextId) :
    (s.setLane p x).windowList c = s.windowList c := rfl
@[simp] theorem State.setLane_context (s : State) (p : PortId) (x : Frame) (c : ContextId) :
    (s.setLane p x).context c = s.context c := rfl
@[simp] theorem State.setLane_agent (s : State) (p : PortId) (x : Frame) (a : AgentId) :
    (s.setLane p x).agent a = s.agent a := rfl
@[simp] theorem State.setLane_entry (s : State) (p : PortId) (x : Frame) (e : EntryId) :
    (s.setLane p x).entry e = s.entry e := rfl
@[simp] theorem State.setLane_parkOrder (s : State) (p : PortId) (x : Frame) (w : WindowId) :
    (s.setLane p x).parkOrder w = s.parkOrder w := rfl
@[simp] theorem State.setLane_slot (s : State) (p : PortId) (x : Frame) (k : SlotId) :
    (s.setLane p x).slot k = s.slot k := rfl
@[simp] theorem State.setLane_port (s : State) (p : PortId) (x : Frame) (p' : PortId) :
    (s.setLane p x).port p' = s.port p' := rfl
/-! ## The reading of a table -/

theorem State.window_eq (s : State) (w : WindowId) : s.window w = tableGet Window.initial s.windows w := rfl

theorem State.word_eq (s : State) (w : WindowId) : s.word w = tableGet CodeWord.initial s.grants w := rfl

theorem State.windowList_eq (s : State) (c : ContextId) : s.windowList c = tableGet ([] : List WindowId) s.windowLists c := rfl

theorem State.context_eq (s : State) (c : ContextId) : s.context c = tableGet Context.initial s.contexts c := rfl

theorem State.agent_eq (s : State) (a : AgentId) : s.agent a = tableGet Agent.initial s.agents a := rfl

theorem State.entry_eq (s : State) (e : EntryId) : s.entry e = tableGet PoolEntry.initial s.pool e := rfl

theorem State.parkOrder_eq (s : State) (w : WindowId) : s.parkOrder w = tableGet ([] : List EntryId) s.parkOrders w := rfl

theorem State.slot_eq (s : State) (k : SlotId) : s.slot k = tableGet Slot.initial s.slots k := rfl

theorem State.port_eq (s : State) (p : PortId) : s.port p = tableGet Port.initial s.ports p := rfl

theorem State.lane_eq (s : State) (p : PortId) : s.lane p = tableGet ([] : Frame) s.lanes p := rfl

end Sys2Proof.Machine
end

