-- ==== Sys2Proof/Laws/Frames.lean ====
section
/-! SUPPORT. What the shared operations leave as it was: the state outside the directory, and the
command engine's queues. A field's equation is a projection of one of these lemmas. -/

namespace Sys2Proof.Machine

/-- The fields that no change, purge, placement or completion writes. -/
structure Outside where
  pending       : List Instr
  resetHeld     : Bool
  init          : Bool
  walkTicks     : Nat
  lastPort      : PortId
  walkPosition  : WindowId
  lanes         : Table 4 Frame
  staging       : List Word
  readPosition  : Nat
  readData      : Word
  cmdOverrun    : Bool
  portChange    : Bool
  attnEnable    : BitVec 4
  recallLimit   : BitVec 12
  scrubInterval : BitVec 8
  scrubPosition : WindowId
  scrubTimer    : Nat
  scrubAhead    : Bool
  storageBank   : StorageBank
  recallBank    : RecallBank
  linkBank      : LinkBank

def State.outside (s : State) : Outside :=
  ⟨s.pending, s.resetHeld, s.init, s.walkTicks, s.lastPort, s.walkPosition, s.lanes, s.staging,
    s.readPosition, s.readData, s.cmdOverrun, s.portChange, s.attnEnable, s.recallLimit,
    s.scrubInterval, s.scrubPosition, s.scrubTimer, s.scrubAhead, s.storageBank, s.recallBank, s.linkBank⟩

/-- The command engine's own state (R139). -/
structure Engine where
  cmdQueue     : List CmdRecord
  completions  : List Completion
  reservations : Nat
  slotWait     : Bool
  fenceWait    : List FenceWait

def State.engine (s : State) : Engine :=
  ⟨s.cmdQueue, s.completions, s.reservations, s.slotWait, s.fenceWait⟩

/-- A fold keeps what each of its steps keeps. -/
theorem foldl_keeps {σ β γ : Type} (f : σ → γ) (op : σ → β → σ) (h : ∀ s b, f (op s b) = f s)
    (l : List β) (s : σ) : f (l.foldl op s) = f s := by
  induction l generalizing s with
  | nil => rfl
  | cons b l ih => rw [List.foldl_cons, ih, h]

/-- A fold keeps an invariant that each of its steps keeps. -/
theorem foldl_invariant {σ β : Type} (P : σ → Prop) (op : σ → β → σ) (h : ∀ s b, P s → P (op s b))
    (l : List β) (s : σ) (hs : P s) : P (l.foldl op s) := by
  induction l generalizing s with
  | nil => exact hs
  | cons b l ih => exact ih _ (h _ _ hs)

/-- An update of a slot keeps both. -/
theorem setSlot_outside (s : State) (k : SlotId) (x : Slot) : (s.setSlot k x).outside = s.outside := rfl

theorem setSlot_engine (s : State) (k : SlotId) (x : Slot) : (s.setSlot k x).engine = s.engine := rfl

/-! ## Placement, holder sets, the pool -/

@[simp] theorem place_outside (s : State) (p : PortId) (m : OutMsg) :
    (s.place p m).outside = s.outside := by
  unfold State.place; split <;> rfl

@[simp] theorem place_engine (s : State) (p : PortId) (m : OutMsg) :
    (s.place p m).engine = s.engine := by
  unfold State.place; split <;> rfl

@[simp] theorem takeInbound_outside (s : State) (p : PortId) :
    (s.takeInbound p).outside = s.outside := rfl

@[simp] theorem takeInbound_engine (s : State) (p : PortId) :
    (s.takeInbound p).engine = s.engine := rfl

@[simp] theorem addHolder_outside (s : State) (w : WindowId) (a : AgentId) :
    (s.addHolder w a).outside = s.outside := by
  unfold State.addHolder; split <;> rfl

@[simp] theorem addHolder_engine (s : State) (w : WindowId) (a : AgentId) :
    (s.addHolder w a).engine = s.engine := by
  unfold State.addHolder; split <;> rfl

@[simp] theorem dropHolder_outside (s : State) (w : WindowId) (a : AgentId) :
    (s.dropHolder w a).outside = s.outside := by
  unfold State.dropHolder; split <;> rfl

@[simp] theorem dropHolder_engine (s : State) (w : WindowId) (a : AgentId) :
    (s.dropHolder w a).engine = s.engine := by
  unfold State.dropHolder; split <;> rfl

@[simp] theorem dropHolders_outside (s : State) (w : WindowId) (x : AgentSet) :
    (s.dropHolders w x).outside = s.outside :=
  foldl_keeps _ _ (fun _ _ => dropHolder_outside _ _ _) _ _

@[simp] theorem dropHolders_engine (s : State) (w : WindowId) (x : AgentSet) :
    (s.dropHolders w x).engine = s.engine :=
  foldl_keeps _ _ (fun _ _ => dropHolder_engine _ _ _) _ _

@[simp] theorem releaseEntry_outside (s : State) (e : EntryId) :
    (s.releaseEntry e).outside = s.outside := by
  unfold State.releaseEntry; dsimp only; split <;> rfl

@[simp] theorem releaseEntry_engine (s : State) (e : EntryId) :
    (s.releaseEntry e).engine = s.engine := by
  unfold State.releaseEntry; dsimp only; split <;> rfl

@[simp] theorem dropEntries_outside (s : State) (pick : PoolEntry → Bool) :
    (s.dropEntries pick).outside = s.outside :=
  foldl_keeps _ _ (fun s e => by split; exact releaseEntry_outside s e; rfl) _ _

@[simp] theorem dropEntries_engine (s : State) (pick : PoolEntry → Bool) :
    (s.dropEntries pick).engine = s.engine :=
  foldl_keeps _ _ (fun s e => by split; exact releaseEntry_engine s e; rfl) _ _

@[simp] theorem movePark_outside (s : State) (w : WindowId) : (s.movePark w).outside = s.outside := by
  unfold State.movePark
  exact foldl_keeps State.outside (fun s e => s.setEntry e { s.entry e with state := .replay })
    (fun _ _ => rfl) _ _

@[simp] theorem movePark_engine (s : State) (w : WindowId) : (s.movePark w).engine = s.engine := by
  unfold State.movePark
  exact foldl_keeps State.engine (fun s e => s.setEntry e { s.entry e with state := .replay })
    (fun _ _ => rfl) _ _

@[simp] theorem dropAnswer_outside (s : State) (k : SlotId) (a : AgentId) :
    (s.dropAnswer k a).outside = s.outside := by
  unfold State.dropAnswer; split
  · rw [dropHolder_outside]; rfl
  · rfl

@[simp] theorem dropAnswer_engine (s : State) (k : SlotId) (a : AgentId) :
    (s.dropAnswer k a).engine = s.engine := by
  unfold State.dropAnswer; split
  · rw [dropHolder_engine]; rfl
  · rfl

/-! ## Completions -/

@[simp] theorem post_outside (s : State) (c : Completion) : (s.post c).outside = s.outside := rfl

@[simp] theorem postAll_outside (s : State) (cs : List Completion) :
    (s.postAll cs).outside = s.outside := foldl_keeps State.outside State.post (fun _ _ => rfl) cs s

@[simp] theorem takeCommand_outside (s : State) : s.takeCommand.outside = s.outside := rfl

@[simp] theorem clearFences_outside (s : State) : s.clearFences.outside = s.outside := rfl

/-! ## Changes -/

@[simp] theorem applyAdd_outside (s : State) (w : WindowId) (c : ContextId) (b : LocalPage)
    (v : NewValues) : (s.applyAdd w c b v).outside = s.outside := by
  have h := dropHolders_outside s w (s.window w).holders
  unfold State.applyAdd
  generalize s.dropHolders w (s.window w).holders = t at h ⊢
  rw [← h]; rfl

@[simp] theorem freeRecord_outside (s : State) (w : WindowId) :
    (s.freeRecord w).outside = s.outside := rfl

@[simp] theorem freeRecord_engine (s : State) (w : WindowId) :
    (s.freeRecord w).engine = s.engine := rfl

@[simp] theorem applyClose_outside (s : State) (c : ContextId) :
    (s.applyClose c).outside = s.outside := by
  unfold State.applyClose
  exact foldl_keeps State.outside
    (fun s w => (s.dropHolders w (s.window w).holders).freeRecord w)
    (fun s w => by rw [freeRecord_outside, dropHolders_outside]) _ _

@[simp] theorem applyClose_engine (s : State) (c : ContextId) :
    (s.applyClose c).engine = s.engine := by
  unfold State.applyClose
  exact foldl_keeps State.engine
    (fun s w => (s.dropHolders w (s.window w).holders).freeRecord w)
    (fun s w => by rw [freeRecord_engine, dropHolders_engine]) _ _

@[simp] theorem leaveWindow_outside (s : State) (a : AgentId) (w : WindowId) :
    (s.leaveWindow a w).outside = s.outside := by
  unfold State.leaveWindow; dsimp only; split
  · split
    · exact dropHolder_outside s w a
    · exact dropHolder_outside s w a
  · exact dropHolder_outside s w a

@[simp] theorem leaveWindow_engine (s : State) (a : AgentId) (w : WindowId) :
    (s.leaveWindow a w).engine = s.engine := by
  unfold State.leaveWindow; dsimp only; split
  · split
    · exact dropHolder_engine s w a
    · exact dropHolder_engine s w a
  · exact dropHolder_engine s w a

@[simp] theorem leaveHoldings_outside (s : State) (c : ContextId) (a : AgentId) :
    (s.leaveHoldings c a).outside = s.outside :=
  foldl_keeps _ _ (fun _ _ => leaveWindow_outside _ _ _) _ _

@[simp] theorem leaveHoldings_engine (s : State) (c : ContextId) (a : AgentId) :
    (s.leaveHoldings c a).engine = s.engine :=
  foldl_keeps _ _ (fun _ _ => leaveWindow_engine _ _ _) _ _

@[simp] theorem changeEffect_outside (s : State) (x : ChangeSubject) (v : NewValues) :
    (s.changeEffect x v).outside = s.outside := by
  cases x with
  | modify w => rfl
  | retire w => rfl
  | close c => exact applyClose_outside s c
  | leave c a => exact leaveHoldings_outside s c a

@[simp] theorem changeEffect_engine (s : State) (x : ChangeSubject) (v : NewValues) :
    (s.changeEffect x v).engine = s.engine := by
  cases x with
  | modify w => rfl
  | retire w => rfl
  | close c => exact applyClose_engine s c
  | leave c a => exact leaveHoldings_engine s c a

@[simp] theorem moveParkOf_outside (s : State) (x : ChangeSubject) :
    (s.moveParkOf x).outside = s.outside := by
  unfold State.moveParkOf; split <;> simp

@[simp] theorem moveParkOf_engine (s : State) (x : ChangeSubject) :
    (s.moveParkOf x).engine = s.engine := by
  unfold State.moveParkOf; split <;> simp

@[simp] theorem completeSlot_outside (s : State) (k : SlotId) :
    (s.completeSlot k).1.outside = s.outside := by
  show ((s.changeEffect _ _).moveParkOf _).outside = _
  simp

@[simp] theorem completeSlot_engine (s : State) (k : SlotId) :
    (s.completeSlot k).1.engine = s.engine := by
  show ((s.changeEffect _ _).moveParkOf _).engine = _
  simp

@[simp] theorem leaveFirst_outside (s : State) (k : SlotId) :
    (s.leaveFirst k).outside = s.outside := by
  unfold State.leaveFirst; split
  · split <;> simp
  · rfl

@[simp] theorem leaveFirst_engine (s : State) (k : SlotId) :
    (s.leaveFirst k).engine = s.engine := by
  unfold State.leaveFirst; split
  · split <;> simp
  · rfl

@[simp] theorem completeIfEmptied_outside (x : State × List Completion) (k : SlotId) :
    (completeIfEmptied x k).1.outside = x.1.outside := by
  unfold completeIfEmptied; split
  · exact completeSlot_outside x.1 k
  · rfl

@[simp] theorem completeIfEmptied_engine (x : State × List Completion) (k : SlotId) :
    (completeIfEmptied x k).1.engine = x.1.engine := by
  unfold completeIfEmptied; split
  · exact completeSlot_engine x.1 k
  · rfl

@[simp] theorem completeEmptied_outside (s : State) : s.completeEmptied.1.outside = s.outside := by
  unfold State.completeEmptied
  rw [foldl_keeps (fun x : State × List Completion => x.1.outside) _ completeIfEmptied_outside]
  dsimp only
  rw [foldl_keeps State.outside _ leaveFirst_outside]

@[simp] theorem completeEmptied_engine (s : State) : s.completeEmptied.1.engine = s.engine := by
  unfold State.completeEmptied
  rw [foldl_keeps (fun x : State × List Completion => x.1.engine) _ completeIfEmptied_engine]
  dsimp only
  rw [foldl_keeps State.engine _ leaveFirst_engine]

@[simp] theorem firstRecall_outside (s : State) (h : Option AgentId) (k : SlotId) (a : AgentId) :
    (s.firstRecall h k a).outside = s.outside := by
  unfold State.firstRecall; split
  · simp
  · exact setSlot_outside _ _ _

@[simp] theorem firstRecall_engine (s : State) (h : Option AgentId) (k : SlotId) (a : AgentId) :
    (s.firstRecall h k a).engine = s.engine := by
  unfold State.firstRecall; split
  · simp
  · exact setSlot_engine _ _ _

@[simp] theorem fillRecords_outside (s : State) (k : SlotId) (x : ChangeSubject) :
    (s.fillRecords k x).outside = s.outside := by
  cases x with
  | modify w => unfold State.fillRecords; dsimp only; rw [dropHolders_outside]; rfl
  | retire w => unfold State.fillRecords; dsimp only; rw [dropHolders_outside]; rfl
  | close c => rfl
  | leave c a => rfl

@[simp] theorem fillRecords_engine (s : State) (k : SlotId) (x : ChangeSubject) :
    (s.fillRecords k x).engine = s.engine := by
  cases x with
  | modify w => unfold State.fillRecords; dsimp only; rw [dropHolders_engine]; rfl
  | retire w => unfold State.fillRecords; dsimp only; rw [dropHolders_engine]; rfl
  | close c => rfl
  | leave c a => rfl

@[simp] theorem fillSlot_outside (s : State) (h : Option AgentId) (k : SlotId) (x : ChangeSubject) (v : NewValues)
    (tag : Half) : (s.fillSlot h k x v tag).outside = s.outside := by
  unfold State.fillSlot; dsimp only
  rw [foldl_keeps State.outside _ (fun _ _ => firstRecall_outside _ _ _ _)]
  have h := fillRecords_outside { s with serial := s.nextSerial } k x
  generalize State.fillRecords { s with serial := s.nextSerial } k x = t at h ⊢
  exact h

@[simp] theorem fillSlot_engine (s : State) (h : Option AgentId) (k : SlotId) (x : ChangeSubject) (v : NewValues)
    (tag : Half) : (s.fillSlot h k x v tag).engine = s.engine := by
  unfold State.fillSlot; dsimp only
  rw [foldl_keeps State.engine _ (fun _ _ => firstRecall_engine _ _ _ _)]
  have h := fillRecords_engine { s with serial := s.nextSerial } k x
  generalize State.fillRecords { s with serial := s.nextSerial } k x = t at h ⊢
  exact h

/-! ## Purges -/

@[simp] theorem sendFence_outside (s : State) (a : AgentId) : (s.sendFence a).outside = s.outside := by
  unfold State.sendFence
  split
  · split
    · simp
    · split <;> rfl
  · rfl

@[simp] theorem sendFence_engine (s : State) (a : AgentId) : (s.sendFence a).engine = s.engine := by
  unfold State.sendFence
  split
  · split
    · simp
    · split <;> rfl
  · rfl

@[simp] theorem quitSlot_outside (s : State) (a : AgentId) (k : SlotId) :
    (s.quitSlot a k).outside = s.outside := by
  unfold State.quitSlot; split <;> simp

@[simp] theorem quitSlot_engine (s : State) (a : AgentId) (k : SlotId) :
    (s.quitSlot a k).engine = s.engine := by
  unfold State.quitSlot; split <;> simp

@[simp] theorem purgeStart_outside (s : State) (a : AgentId) (x : PurgeTarget) :
    (s.purgeStart a x).outside = s.outside := by
  have key : ∀ (t : State) (y : AgentSet), ({ t with purgeSet := y } : State).outside = t.outside :=
    fun _ _ => rfl
  unfold State.purgeStart; dsimp only
  rw [key, foldl_keeps State.outside _ (fun _ _ => quitSlot_outside _ _ _), dropEntries_outside]
  split
  · rw [sendFence_outside]; rfl
  · rfl

@[simp] theorem purgeStart_engine (s : State) (a : AgentId) (x : PurgeTarget) :
    (s.purgeStart a x).engine = s.engine := by
  have key : ∀ (t : State) (y : AgentSet), ({ t with purgeSet := y } : State).engine = t.engine :=
    fun _ _ => rfl
  unfold State.purgeStart; dsimp only
  rw [key, foldl_keeps State.engine _ (fun _ _ => quitSlot_engine _ _ _), dropEntries_engine]
  split
  · rw [sendFence_engine]; rfl
  · rfl

@[simp] theorem fence_outside (s : State) (a : AgentId) : (s.fence a).outside = s.outside := by
  unfold State.fence; dsimp only; split
  · simp
  · split
    · rfl
    · rw [sendFence_outside]; rfl
  · rfl
  · rfl

@[simp] theorem fence_engine (s : State) (a : AgentId) : (s.fence a).engine = s.engine := by
  unfold State.fence; dsimp only; split
  · simp
  · split
    · rfl
    · rw [sendFence_engine]; rfl
  · rfl
  · rfl

@[simp] theorem depart_outside (s : State) (a : AgentId) : (s.depart a).outside = s.outside := by
  unfold State.depart; dsimp only; split
  · simp
  · split <;> rfl
  · rfl
  · rfl

@[simp] theorem depart_engine (s : State) (a : AgentId) : (s.depart a).engine = s.engine := by
  unfold State.depart; dsimp only; split
  · simp
  · split <;> rfl
  · rfl
  · rfl

@[simp] theorem losePort_outside (s : State) (p : PortId) (a : AgentId) :
    (s.losePort p a).outside = s.outside := by
  unfold State.losePort; split
  · exact depart_outside s a
  · rfl

@[simp] theorem losePort_engine (s : State) (p : PortId) (a : AgentId) :
    (s.losePort p a).engine = s.engine := by
  unfold State.losePort; split
  · exact depart_engine s a
  · rfl

@[simp] theorem losePorts_outside (s : State) (p : PortId) :
    (s.losePorts p).outside = s.outside := foldl_keeps _ _ (fun _ _ => losePort_outside _ _ _) _ _

@[simp] theorem losePorts_engine (s : State) (p : PortId) :
    (s.losePorts p).engine = s.engine := foldl_keeps _ _ (fun _ _ => losePort_engine _ _ _) _ _

@[simp] theorem reachTarget_outside (s : State) (c : Option AgentId) (a : AgentId) :
    (s.reachTarget c a).outside = s.outside := by
  unfold State.reachTarget; dsimp only; split
  · split
    · rw [place_outside]; rfl
    · rfl
  · rfl
  · rfl
  · rfl

@[simp] theorem reachTarget_engine (s : State) (c : Option AgentId) (a : AgentId) :
    (s.reachTarget c a).engine = s.engine := by
  unfold State.reachTarget; dsimp only; split
  · split
    · rw [place_engine]; rfl
    · rfl
  · rfl
  · rfl
  · rfl

@[simp] theorem endPurge_outside (s : State) (c : Option AgentId) (a : AgentId) :
    (s.endPurge c a).outside = s.outside := by
  unfold State.endPurge; split
  · exact reachTarget_outside s c a
  · rfl

@[simp] theorem endPurge_engine (s : State) (c : Option AgentId) (a : AgentId) :
    (s.endPurge c a).engine = s.engine := by
  unfold State.endPurge; split
  · exact reachTarget_engine s c a
  · rfl

@[simp] theorem endPurges_outside (s : State) (c : Option AgentId) :
    (s.endPurges c).outside = s.outside := foldl_keeps _ _ (fun _ _ => endPurge_outside _ _ _) _ _

@[simp] theorem endPurges_engine (s : State) (c : Option AgentId) :
    (s.endPurges c).engine = s.engine := foldl_keeps _ _ (fun _ _ => endPurge_engine _ _ _) _ _

/-! ## The end of a claim -/

@[simp] theorem settle_outside (s : State) (c : Option AgentId) (late : Bool) :
    (s.settle c late).outside = s.outside := by
  unfold State.settle; simp

@[simp] theorem applyNow_outside (s : State) (r : CmdRecord) (x : ChangeSubject) (v : NewValues) :
    (s.applyNow r x v).outside = s.outside := by
  unfold State.applyNow; simp

@[simp] theorem carryOut_outside (s : State) (h : Option AgentId) (late : Bool) (r : CmdRecord) (j : Judgement) :
    (s.carryOut h late r j).outside = s.outside := by
  unfold State.carryOut
  split
  · rfl
  · rw [applyNow_outside]; rfl
  · split
    · rfl
    · rw [settle_outside, fillSlot_outside]; rfl

@[simp] theorem reconsider_outside (s : State) (h : Option AgentId) :
    (s.reconsider h).outside = s.outside := by
  unfold State.reconsider; split
  · split <;> simp
  · rfl

@[simp] theorem finish_outside (s : State) (c : Option AgentId) :
    (s.finish c).outside = s.outside := by
  unfold State.finish; simp

/-! ## What a port's entry into REINIT leaves outside -/

/-- A port that enters REINIT raises PORT_CHANGE and leaves every other outside field. -/
theorem enterReinit_outside (s : State) (p : PortId) (d : Destination) :
    (s.enterReinit p d).outside = { s.outside with portChange := true } := by
  unfold State.enterReinit; simp; rfl

theorem enterUp_outside (s : State) (p : PortId) :
    (s.enterUp p).outside = { s.outside with portChange := true } := by
  unfold State.enterUp
  rw [foldl_keeps State.outside]
  · rfl
  · intro s a
    unfold State.announceFence; dsimp only
    split <;> simp

end Sys2Proof.Machine
end

