-- ==== Sys2Proof/Laws/Claims.lean ====
section
/-! SUPPORT. What the shared operations answer, one lemma for each case, and the end of a claim that
leaves nothing over. -/

namespace Sys2Proof.Machine

/-! ## Placement -/

theorem place_of_room {s : State} {p : PortId} (h : s.HasRoom p) (m : OutMsg) :
    s.place p m = s.setPort p { s.port p with outbound := (s.port p).outbound ++ [m] } := if_pos h

theorem place_of_no_room {s : State} {p : PortId} (h : ¬ s.HasRoom p) (m : OutMsg) :
    s.place p m = s := if_neg h

/-- A placement changes port records alone. -/
theorem place_only_ports (s : State) (p : PortId) (m : OutMsg) :
    s.place p m = { s with ports := (s.place p m).ports } := by
  unfold State.place; split <;> rfl

/-- No place is kept in a claim that is no HELLO's. -/
@[simp] theorem keptPlaces_none (s : State) (a : AgentId) (p : PortId) :
    s.keptPlaces none a p = 0 := rfl

/-- A port that `roomFor` gives is the agent's own and has room, so that the placement is made. -/
theorem roomFor_hasRoom {s : State} {kept : Option AgentId} {a : AgentId} {p : PortId}
    (h : s.roomFor kept a = some p) : (s.agent a).port = some p ∧ s.HasRoom p := by
  unfold State.roomFor at h
  split at h
  · next q hq =>
    split at h
    · next hr =>
      cases h
      exact ⟨hq, hr.1, Nat.lt_of_le_of_lt (Nat.le_add_right _ _) hr.2⟩
    · cases h
  · cases h

/-! ## Holder sets -/

theorem dropHolder_of_holder {s : State} {w : WindowId} {a : AgentId}
    (h : hasAgent (s.window w).holders a = true) :
    s.dropHolder w a =
      (s.setWindow w { s.window w with holders := dropAgent (s.window w).holders a }).setAgent a
        { s.agent a with held := (s.agent a).held - 1 } := if_pos h

theorem dropHolder_of_no_holder {s : State} {w : WindowId} {a : AgentId}
    (h : hasAgent (s.window w).holders a = false) : s.dropHolder w a = s := by
  unfold State.dropHolder; simp [h]

theorem addHolder_of_holder {s : State} {w : WindowId} {a : AgentId}
    (h : hasAgent (s.window w).holders a = true) : s.addHolder w a = s := if_pos h

theorem addHolder_of_no_holder {s : State} {w : WindowId} {a : AgentId}
    (h : hasAgent (s.window w).holders a = false) :
    s.addHolder w a =
      (s.setWindow w { s.window w with holders := addAgent (s.window w).holders a }).setAgent a
        { s.agent a with held := (s.agent a).held + 1 } := by
  unfold State.addHolder; simp [h]

/-! ## Claims that are not taken -/

theorem whenReleased_of_released {s : State} (h : s.resetHeld = false) (f : State → State) :
    s.whenReleased f = f s := by simp [State.whenReleased, h]

theorem whenServing_of_serving {s : State} (h : Serving s) (f : State → State) :
    s.whenServing f = f s := by simp [State.whenServing, h.1, h.2]

theorem takeHead_of_canTake {s : State} {r : CmdRecord} {rest : List CmdRecord} (h : CanTake s r rest)
    (f : CmdRecord → State → State) : s.takeHead (recordKind r) f = f r s := by
  obtain ⟨hs, hw, hr, hq⟩ := h
  unfold State.takeHead
  rw [whenServing_of_serving hs]
  simp only [State.headFor, hq, hw, true_and, and_true, if_pos hr]

theorem takeHead_of_kind {s : State} {r : CmdRecord} {rest : List CmdRecord} (h : CanTake s r rest)
    {kind : Option CommandKind} (hk : recordKind r = kind) (f : CmdRecord → State → State) :
    s.takeHead kind f = f r s := by rw [← hk]; exact takeHead_of_canTake h f

/-- A command taken and completed in one claim. -/
theorem takeCommand_post {s : State} {r : CmdRecord} {rest : List CmdRecord} (h : CanTake s r rest)
    (status : Status) (result : Result) :
    s.takeCommand.post ⟨recordCode r, status, recordTag r, result⟩ = s.answered rest r status result := by
  unfold State.takeCommand State.post State.answered
  simp [h.2.2.2, ← h.2.1]

/-- A command refused in its take claim. -/
theorem refuse_of_canTake {s : State} {r : CmdRecord} {rest : List CmdRecord} (h : CanTake s r rest)
    (status : Status) : s.refuse r status = s.answered rest r status .refused := takeCommand_post h _ _

/-! ## The scrubber's event of a tick -/

theorem tickScrubber_at_rest {s : State} (h : s.init = true ∨ s.scrubInterval = 0) :
    s.tickScrubber = { s with scrubTimer := 0, scrubAhead := false } := if_pos h

theorem tickScrubber_of_ahead {s : State} (hi : s.init = false) (h0 : s.scrubInterval ≠ 0)
    (h : s.scrubAhead = true) : s.tickScrubber = { s with scrubAhead := false } := by
  unfold State.tickScrubber
  rw [if_neg (not_or.mpr ⟨by simp [hi], h0⟩), if_pos h]

theorem tickScrubber_of_reached {s : State} (hi : s.init = false) (ha : s.scrubAhead = false)
    (h : s.ScrubReached) : s.tickScrubber = s.scrub := by
  unfold State.tickScrubber
  rw [if_neg (not_or.mpr ⟨by simp [hi], h.1⟩), if_neg (by simp [ha]), if_pos h]

theorem tickScrubber_of_below {s : State} (hi : s.init = false) (h0 : s.scrubInterval ≠ 0)
    (ha : s.scrubAhead = false) (h : ¬ s.ScrubReached) :
    s.tickScrubber = { s with scrubTimer := s.scrubTimer + 1 } := by
  unfold State.tickScrubber
  rw [if_neg (not_or.mpr ⟨by simp [hi], h0⟩), if_neg (by simp [ha]), if_neg h]

/-- A scrub read changes the record it reads, the STORAGE bank, the position and the timer alone. -/
theorem scrub_only_storage (s : State) :
    s.scrub = { s with
      windows := s.scrub.windows, grants := s.scrub.grants, storageBank := s.scrub.storageBank,
      scrubPosition := s.scrubPosition + 1, scrubTimer := 0 } := by
  unfold State.scrub State.readGrant
  split
  · rfl
  · split
    · rfl
    · rfl
    · unfold State.spoil; split <;> rfl

/-! ## The end of a claim -/

theorem foldl_fixed {σ β : Type} (op : σ → β → σ) (s : σ) (l : List β) (h : ∀ b ∈ l, op s b = s) :
    l.foldl op s = s := by
  induction l with
  | nil => rfl
  | cons b l ih =>
    rw [List.foldl_cons, h b List.mem_cons_self, ih fun c hc => h c (List.mem_cons_of_mem _ hc)]

theorem completeEmptied_of_none {s : State} (h : ∀ k, ¬ s.Emptied k) : s.completeEmptied = (s, []) := by
  unfold State.completeEmptied
  rw [foldl_fixed State.leaveFirst s allSlots fun k _ => by unfold State.leaveFirst; exact if_neg (h k)]
  exact foldl_fixed _ _ _ fun k _ => by unfold completeIfEmptied; exact if_neg (h k)

theorem endPurges_of_none {s : State} (c : Option AgentId)
    (h : ∀ a, (s.agent a).state = .purging → (s.agent a).held ≠ 0) : s.endPurges c = s :=
  foldl_fixed _ _ _ fun a _ => by
    unfold State.endPurge
    exact if_neg fun hh => h a hh.1 hh.2

/-- A claim that is no HELLO's keeps no place. -/
theorem finish_none (s : State) : s.finish none = (s.settle none false).reconsider none := rfl

/-- With no head waiting for a slot nothing is examined again. -/
theorem reconsider_of_none_waiting {s : State} (h : s.slotWait = false) (k : Option AgentId) :
    s.reconsider k = s := by simp [State.reconsider, h]

/-- A claim that leaves nothing over ends as it stands. -/
theorem finish_of_settled {s : State} (h : Settled s) (c : Option AgentId) : s.finish c = s := by
  obtain ⟨h1, h2, h3, h4⟩ := h
  have hf : s.fencesDone = [] := by
    unfold State.fencesDone
    rw [List.filter_eq_nil_iff]
    intro f hf
    simpa using h3 f hf
  have hc : s.clearFences = s := by
    have : (s.fenceWait.filter fun f => decide ((s.agent f.agent).state ≠ .fenced)) = s.fenceWait :=
      List.filter_eq_self.mpr fun f hf => by simpa using h3 f hf
    unfold State.clearFences
    rw [this]
  have hs : ∀ d, s.settle d false = s := fun d => by
    unfold State.settle
    simp only [completeEmptied_of_none h1, endPurges_of_none d h2, hf, hc]
    rfl
  unfold State.finish
  dsimp only
  rw [hs]
  unfold State.reconsider
  by_cases hw : s.slotWait = true
  · simp [h4 hw]
  · simp [hw]

/-! ## Several completions -/

@[simp] theorem completedAll_nil (s : State) : s.completedAll [] = (s, []) := rfl

@[simp] theorem completedAll_cons (s : State) (k : SlotId) (l : List SlotId) :
    s.completedAll (k :: l) = (((s.completeSlot k).1.completedAll l).1,
      (s.completeSlot k).2 :: ((s.completeSlot k).1.completedAll l).2) := rfl

end Sys2Proof.Machine
end

