-- ==== Sys2Proof/Laws/Sets.lean ====
section
/-! SUPPORT. Membership in an agent set after each set operation, what the two searches for a free record
find, and when two runs of pages meet. -/

namespace Sys2Proof.Machine

/-! ## Sets of agents -/

@[simp] theorem hasAgent_zero (a : AgentId) : hasAgent 0 a = false := by simp [hasAgent]

theorem hasAgent_oneAgent (a b : AgentId) : hasAgent (oneAgent a) b = decide (b = a) := by
  by_cases h : b = a
  · subst h; simp [hasAgent, oneAgent]
  · have hv : b.val ≠ a.val := fun e => h (Fin.ext e)
    simp [hasAgent, oneAgent, h, hv]

theorem hasAgent_addAgent (x : AgentSet) (a b : AgentId) :
    hasAgent (addAgent x a) b = (hasAgent x b || decide (b = a)) := by
  rw [← hasAgent_oneAgent]
  simp [hasAgent, addAgent]

theorem hasAgent_dropAgent (x : AgentSet) (a b : AgentId) :
    hasAgent (dropAgent x a) b = (hasAgent x b && decide (b ≠ a)) := by
  by_cases h : b = a
  · subst h; simp [hasAgent, dropAgent, oneAgent]
  · have hv : b.val ≠ a.val := fun e => h (Fin.ext e)
    simp [hasAgent, dropAgent, oneAgent, h, hv]

theorem mem_agentsOf (x : AgentSet) (a : AgentId) : a ∈ agentsOf x ↔ hasAgent x a = true := by
  simp [agentsOf, allAgents]

/-- Two sets with the same members are equal. -/
theorem agentSet_ext {x y : AgentSet} (h : ∀ a, hasAgent x a = hasAgent y a) : x = y := by
  apply BitVec.eq_of_getLsbD_eq
  intro i hi
  exact h ⟨i, hi⟩

/-! ## The lowest FREE window (R11) -/

theorem freeFrom_of_none {s : State} (h : ∀ w, (s.window w).state ≠ .free) (n i : Nat) :
    s.freeFrom n i = none := by
  induction n generalizing i with
  | zero => rfl
  | succ n ih =>
    unfold State.freeFrom
    split
    · rfl
    · rw [if_neg (h _), ih]

theorem freeFrom_of_lowest {s : State} {w : WindowId} (hf : (s.window w).state = .free)
    (h : ∀ u, u < w → (s.window u).state ≠ .free) (n i : Nat) (h1 : i ≤ w.val) (h2 : w.val < i + n) :
    s.freeFrom n i = some w := by
  induction n generalizing i with
  | zero => omega
  | succ n ih =>
    have hi : i < 4096 := by have := w.isLt; omega
    unfold State.freeFrom
    simp only [finOf, hi, dif_pos]
    by_cases he : i = w.val
    · subst he; simp [hf]
    · have hu : (s.window ⟨i, hi⟩).state ≠ .free := h _ (by show i < w.val; omega)
      simp only [if_neg hu]
      exact ih (i + 1) (by omega) (by omega)

/-- The window the allocation finds is the lowest FREE one. -/
theorem freeWindow_of_lowest {s : State} {w : WindowId} (hf : (s.window w).state = .free)
    (h : ∀ u, u < w → (s.window u).state ≠ .free) : s.freeWindow = some w :=
  freeFrom_of_lowest hf h 4096 0 (Nat.zero_le _) (by have := w.isLt; omega)

theorem freeWindow_of_none {s : State} (h : ∀ w, (s.window w).state ≠ .free) : s.freeWindow = none :=
  freeFrom_of_none h 4096 0

/-! ## Runs of pages -/

/-- Two runs of pages meet exactly when they have a page in common. -/
theorem rangesMeet_iff (base len base' len' : Nat) :
    RangesMeet base len base' len' ↔
      ∃ page, (base ≤ page ∧ page < base + len) ∧ base' ≤ page ∧ page < base' + len' := by
  unfold RangesMeet
  exact ⟨fun h => ⟨max base base', by omega⟩, fun ⟨_, h⟩ => by omega⟩

end Sys2Proof.Machine
end

