-- ==== Sys2Proof/Tests/Slice0.lean ====
section
/-! SUPPORT. Tests: ill-formed commands, frames written out word by word, single steps on small states,
and for every statement with hypotheses a state that meets them, clause by clause. -/

open Sys2Proof Sys2Proof.Machine

namespace Sys2Proof.Tests

set_option Elab.async false

/-! ## Well-formedness -/

theorem test_wf_ready_needs_its_kind : (Instr.readyReceived 0 [0x02000300, 16, 0]).wf = false := by
  decide
theorem test_wf_credit_needs_its_kind : (Instr.creditReceived 0 [0x01000300, 16, 0]).wf = false := by
  decide
theorem test_wf_reinit_needs_its_kind : (Instr.reinitReceived 0 [0x10050200, 0]).wf = false := by decide
theorem test_wf_message_is_no_control : (Instr.agentMessageArrival 0 [0x03000200, 0]).wf = false := by
  decide
theorem test_wf_ignored_write_is_not_to_fault_clear :
    (Instr.registerWriteIgnored 0x24 7).wf = false := by decide
theorem test_wf_accepts :
    (Instr.readyReceived 0 [0x01000300, 16, 0xAA3C]).wf = true ∧
    (Instr.agentMessageArrival 0 [0x10050200, 0x12F5]).wf = true ∧
    (Instr.registerWriteIgnored 0x00 1).wf = true ∧ (Instr.registerWriteIgnored 0x05 1).wf = true ∧
    (Instr.registerWriteIgnored 0xFF 1).wf = true := by decide

/-! ## Frames, word by word (R176, R177) -/

theorem test_frames_received :
    decodeFrame [0x01000300, 16, 0xAA3C] = .ready 16 ∧
    decodeFrame [0x02000300, 3, 0x401B] = .credit 3 ∧
    decodeFrame [0x03000200, 0x797E] = .reinit ∧
    decodeFrame [0x10050200, 0x12F5] = .agent (.hello 5) ∧
    decodeFrame [0x11050200, 0x6441] = .agent (.goodbye 5) ∧
    decodeFrame [0x12050400, 0x12340312, 0x00001004, 0x76EF] =
      .agent (.translate ⟨5, 0x1234, 3, 0x200001004, .write⟩) ∧
    decodeFrame [0x13050300, 0x00070001, 0xE609] = .agent (.release 5 7 1) ∧
    decodeFrame [0x14050300, 9, 0x2589] = .agent (.recallAck 5 9) := by decide +kernel

theorem test_frames_refused :
    decodeFrame [] = .bad .check ∧ decodeFrame [0x10050200] = .bad .check ∧
    decodeFrame [0x10050200, 0x12F4] = .bad .check ∧
    decodeFrame (buildFrame 0x20 0 []) = .bad .unknownKind ∧
    decodeFrame (buildFrame 0x10 5 [0]) = .bad .badLength ∧
    decodeFrame (buildFrame 0x10 32 []) = .bad .badField ∧
    decodeFrame (buildFrame 0x12 0 [0x30, 0]) = .bad .badField ∧
    decodeFrame (buildFrame 0x01 0 [0]) = .bad .badField ∧
    decodeFrame (buildFrame 0x02 0 [33]) = .bad .badField := by decide +kernel

/-- Positions that are not defined are not read, the agent number of a control message among them. -/
theorem test_frames_undefined_positions :
    decodeFrame (buildFrame 0x01 0xFF [0xFFFFFF20]) = .ready 32 ∧
    decodeFrame (buildFrame 0x14 5 [0xFFFF0009]) = .agent (.recallAck 5 9) := by decide +kernel

theorem test_frames_sent :
    outFrame (.grant 5 0x1234 7 1 0x1000 16 ⟨0x80, ⟨true, true, false⟩, .strict⟩) =
      [0x21050800, 0x12340001, 0x00030007, 0x1000, 0x10, 0x80, 0, 0xB11F] ∧
    (outFrame (.deny 5 0x1234 .retry)).take 2 = [0x22050300, 0x12340003] ∧
    (outFrame (.recall 5 9 (.window 7 1) true)).take 3 = [0x23050400, 0x00090001, 0x40000007] ∧
    (outFrame (.recall 5 9 (.context 3) false)).take 3 = [0x23050400, 0x00090000, 0x80000003] ∧
    (outFrame (.welcome 5 .fenced)).take 2 = [0x20050300, 2] ∧
    outFrame (.fence 5) = buildFrame 0x24 5 [] ∧ outFrame (.unfence 5) = buildFrame 0x25 5 [] := by
  decide +kernel

theorem test_query_words :
    let c : Completion := ⟨0x30, .ok, 9, .window 7
      ⟨.changing, 3, 0x100001000, 16, 2, 0x24, some 5, true⟩ ⟨0x4500000080, ⟨true, false, true⟩, .cached⟩⟩
    (List.range 8).map (completionWord c) =
      [0x30000009, 0x8D020007, 0x45012503, 0x1000, 16, 2, 0x24, 0x80] := by decide +kernel

/-- An ADD_WINDOW and a MODIFY_WINDOW record, field by field, at the ends of their ranges (R178). -/
theorem test_command_fields :
    (let r : CmdRecord := ⟨0x10AB1234, 0x002100FF, 0x89ABCDEF, 0xF1000000, 0xFFFFFFFE, 0xFFFFFF7F⟩
     recordKind r = some .addWindow ∧ recordTag r = 0x1234 ∧ operand2 256 r = some 255 ∧
     localBaseOperand r = 0xF89ABCDEF ∧
     valueOperands r = some ⟨0x1000000, ⟨0x7FFFFFFFFE, ⟨true, false, false⟩, .cached⟩⟩) ∧
    (let r : CmdRecord := ⟨0x11000001, 0x00140FFF, 0xFFFF8001, 1, 0, 0⟩
     operand2 4096 r = some 4095 ∧ versionOperand r = 0x8001 ∧
     valueOperands r = some ⟨1, ⟨0, ⟨false, false, true⟩, .posted⟩⟩) ∧
    operand3 32 ⟨0x03000000, 3, 31, 0, 0, 0⟩ = some 31 ∧
    operand3 32 ⟨0x03000000, 3, 32, 0, 0, 0⟩ = none := by decide +kernel

/-! ## Small states -/

/-- Out of reset, with no walk in progress. -/
def served : State := { State.reset with init := false }

/-- A port UP with 8 partner credits. -/
def upPort (inbound : List InMsg) (outbound : List OutMsg) : Port :=
  ⟨.up, .training, true, true, inbound, outbound, 8, 0⟩

/-- Port 1 as given. -/
def withPort (r : Port) : State := served.setPort 1 r

/-- An agent record with a state, a port, a target and a held count. -/
def agentOf (state : AgentState) (port : Option PortId) (target : Option PurgeTarget) (held : Nat) :
    Agent := ⟨state, port, target, false, false, held⟩

/-- Window 7 of context 3, LIVE, one page from 1000h, held by the set given. -/
def liveWindow (holders : AgentSet) : Window := ⟨.live, 3, 0x1000, 1, 1, holders, none, false⟩

/-- Context 3 OPEN with window 7 and agents 2 and 5 as members. -/
def directory (w : Window) : State :=
  ((((withPort (upPort [] [])).setAgent 2 (agentOf .active (some 1) none 1)).setAgent 5
    (agentOf .active (some 1) none 0)).setContext 3 ⟨.opened, 0x24, 0, 1, none⟩ |>.setWindowList 3 [7]
    |>.setWindow 7 w).setWord 7 ⟨⟨0x80, ⟨true, false, false⟩, .strict⟩, []⟩

/-- A slot of a MODIFY of window 7. -/
def modifySlot (pending unsent : AgentSet) (due : DueEvent) : Slot :=
  ⟨.active, 4, .modify 7, ⟨2, ⟨0x90, ⟨true, true, true⟩, .cached⟩⟩, 0x55, pending, unsent, 100, false, 0,
    due⟩

/-- Window 7 under a MODIFY in slot 2. -/
def changing (pending : AgentSet) (due : DueEvent) : State :=
  { (directory { liveWindow pending with state := .changing, slot := some 2 }).setSlot 2
      (modifySlot pending 0 due) with reservations := 1 }

/-- A CONTEXT-scope change of context 3 in slot 2, with its pending set. -/
def closing (pending : AgentSet) : State :=
  ((directory (liveWindow pending)).setContext 3 ⟨.closing, 0x24, 0, 1, some 2⟩).setSlot 2
    { modifySlot pending 0 .nothing with subject := .close 3 }

/-- Where window 7 is the one record listed, its change slot alone has to name its change. -/
theorem changesNamed_of_7 {s : State} {r : Window} (hw : s.windows = [(7, r)])
    (h : r.state = .changing ↔ r.slot ≠ none)
    (hk : ∀ k, r.slot = some k → (s.slot k).state = .active ∧ subjectWindow (s.slot k).subject = some 7) :
    ChangesNamed s := by
  intro w
  rw [State.window, hw]
  by_cases e : 7 = w
  · subst e
    exact ⟨h, hk⟩
  · rw [show tableGet Window.initial [(7, r)] w = Window.initial from if_neg e]
    exact ⟨by decide, fun k hk => by cases hk⟩

/-- A state whose command queue is one record. -/
def commanded (s : State) (r : CmdRecord) : State := { s with cmdQueue := [r] }

/-- A record of a kind code with words 2 and 3. -/
def record (kind w2 w3 : Nat) : CmdRecord :=
  ⟨wordOf [(24, kind), (0, 0x77)], BitVec.ofNat 32 w2, BitVec.ofNat 32 w3, 0, 0, 0⟩

/-- `x` delivered as the head of port 1's inbound queue in `s`. -/
def delivered (s : State) (x : InMsg) : State := s.setPort 1 { s.port 1 with inbound := [x] }

/-- The command answers a next state that passes the check. -/
def answers (c : Instr) (s : State) (check : State → Bool) : Bool :=
  match exec c s with
  | .next u => check u
  | _ => false

/-! ## Single steps -/

theorem test_step_hello_welcomes :
    answers (.hello 1) (withPort (upPort [.hello 9] [])) (fun u => decide (u =
      (served.setAgent 9 (agentOf .active (some 1) none 0)).setPort 1
        ⟨.up, .training, true, true, [], [.welcome 9 .accepted], 8, 1⟩)) = true := by decide +kernel

theorem test_step_lookup_grants :
    answers .lookup (delivered (directory (liveWindow 0x4)) (.translate ⟨5, 1, 3, 0x1000, .read⟩))
      (fun u => decide ((u.port 1).outbound =
        [.grant 5 1 7 1 0x1000 1 ⟨0x80, ⟨true, false, false⟩, .strict⟩] ∧
        (u.window 7).holders = 0x24 ∧ (u.agent 5).held = 1 ∧ u.lastPort = 1)) = true := by decide +kernel

theorem test_step_translate_parks :
    answers .lookup (delivered (changing 0x4 .nothing) (.translate ⟨5, 1, 3, 0x1000, .read⟩))
      (fun u => decide ((u.port 1).outbound = [] ∧ u.parkOrder 7 = [0] ∧
        u.entry 0 = ⟨.parked, ⟨5, 1, 3, 0x1000, .read⟩, 1, 7⟩)) = true := by decide +kernel

theorem test_step_ack_completes :
    answers (.recallAck 1) (delivered (changing 0x4 .nothing) (.recallAck 2 4))
      (fun u => decide (u.window 7 = ⟨.live, 3, 0x1000, 2, 2, 0, none, false⟩ ∧ (u.agent 2).held = 0 ∧
        u.completions = [⟨0x11, .done, 0x55, .modified 7 4 0 2 false⟩] ∧ u.reservations = 0)) = true := by decide +kernel

theorem test_step_timeout_fences :
    answers (.recallTimeout 2) (changing 0x4 .timeout)
      (fun u => decide ((u.agent 2).state = .fenced ∧ (u.port 1).outbound = [.fence 2] ∧
        u.completions = [⟨0x11, .doneFenced, 0x55, .modified 7 4 0x4 2 false⟩] ∧
        u.recallBank = ⟨true, false, 4, .modify 7, 0x4⟩)) = true := by decide +kernel

theorem test_step_retire_takes_a_slot :
    answers .retireWindow (commanded (directory (liveWindow 0x4)) (record 0x12 7 0))
      (fun u => decide ((u.window 7).state = .changing ∧ (u.slot 0).pending = 0x4 ∧ u.serial = 1 ∧
        (u.port 1).outbound = [.recall 2 1 (.window 7 1) false] ∧ u.reservations = 1 ∧
        u.completions = [])) = true := by decide +kernel

theorem test_step_leave_of_a_holder :
    answers .leave (commanded (directory (liveWindow 0x4)) (record 0x04 3 2))
      (fun u => decide ((u.context 3).leaving = 0x4 ∧ (u.slot 0).pending = 0x4 ∧
        (u.port 1).outbound = [.recall 2 1 (.context 3) false])) = true := by decide +kernel

theorem test_step_violation :
    answers (.agentMessageArrival 1 [0]) (directory (liveWindow 0x4))
      (fun u => decide (u.port 1 = reinitRecord .training ∧ u.linkBank = ⟨true, false, 1, .check⟩ ∧
        u.purgeSet = 0x4 ∧ (u.agent 5) = Agent.initial)) = true := by decide +kernel

theorem test_step_purge_visit_ends :
    answers .purgeVisit { (directory (liveWindow 0x4)).setAgent 2
        (agentOf .purging (some 1) (some .absent) 1) with purgeSet := 0x4, walkPosition := 7 }
      (fun u => decide (u.agent 2 = Agent.initial ∧ (u.window 7).holders = 0 ∧ u.purgeSet = 0 ∧
        u.walkPosition = 8)) = true := by decide +kernel

/-- The tick that reaches the scrub interval makes the read in its own claim, once with a SCRUB_READ
taken ahead of it or without. -/
theorem test_step_tick_makes_the_scrub_read :
    let s := { (directory (liveWindow 0)).setWord 7 ⟨⟨0x80, ⟨true, false, false⟩, .strict⟩, [3]⟩ with
      scrubInterval := 1, scrubTimer := 63, scrubPosition := 7 }
    let read := fun u : State => decide ((u.word 7).flipped = [] ∧ u.scrubPosition = 8 ∧
      u.scrubTimer = 0 ∧ u.storageBank = ⟨true, false, .corrected, 7, .scrub, false⟩)
    answers .timebaseTick s (fun u => read u && !u.scrubAhead) = true ∧
    answers .scrubRead s (fun u => read u && u.scrubAhead &&
      answers .timebaseTick u fun v => read v && !v.scrubAhead) = true ∧
    answers .timebaseTick { s with scrubInterval := 0 } (fun u => decide (u.scrubTimer = 0 ∧
      (u.word 7).flipped = [3] ∧ u.storageBank.valid = false)) = true := by decide +kernel

theorem test_step_head_that_waited_is_taken :
    answers (.recallAck 1) { commanded (delivered (changing 0x4 .nothing) (.recallAck 2 4))
        (record 0x04 3 5) with slotWait := true } (fun u => decide (u.cmdQueue = [] ∧
      u.slotWait = false ∧ u.completions.map (·.tag) = [0x55, 0x77])) = true := by decide +kernel

/-- Every slot is ACTIVE, slot 2 waiting for agent 2 alone, whose HELLO is at the head of a port with one place
left; the head of the command queue, a RETIRE of the window agents 2 and 5 hold, waits for a slot. -/
def lastPlaceRecall : State :=
  { commanded ((directory (liveWindow 0x24)).setPort 1
      (upPort [.hello 2] (List.replicate 31 (.fence 9)))) (record 0x12 7 0) with
    slots := allSlots.map fun k =>
      (k, { modifySlot (if k = 2 then 0x4 else 0x8) 0 .nothing with
        serial := BitVec.ofNat 16 k.val, subject := .close 9 })
    reservations := 8, slotWait := true }

/-- A HELLO whose purge start completes a change, so that the head that waited fills the slot and ends the
purge: the port's last free place is the WELCOME's, and the other holder's first RECALL stays unsent (R33,
R141; log 14). -/
theorem test_step_hello_keeps_its_place :
    answers (.hello 1) lastPlaceRecall (fun u => decide ((u.port 1).outbound =
        List.replicate 31 (.fence 9) ++ [.welcome 2 .accepted] ∧
      u.agent 2 = agentOf .active (some 1) none 0 ∧ (u.slot 2).pending = 0x20 ∧
      (u.slot 2).unsent = 0x20 ∧ u.purgeSet = 0 ∧ u.cmdQueue = [])) = true := by decide +kernel

/-- A CLOSE waits for agent 5 alone, whose HELLO is at the head of a port with one place left; its completion
ends the purges of agents 2 and 5, which hold a window of the context. -/
def lastPlaceWelcome : State :=
  { (((closing 0x24).setAgent 2 { agentOf .purging (some 1) (some .active) 1 with
      welcomeOwed := true }).setAgent 5 (agentOf .active (some 1) none 1)).setSlot 2
      { modifySlot 0x20 0 .nothing with subject := .close 3 } with purgeSet := 0x4 }.setPort 1
    (upPort [.hello 5] (List.replicate 31 (.fence 9)))

/-- The place is the WELCOME's of the HELLO's agent, and the lower agent's WELCOME stays owed (log 14). -/
theorem test_step_hello_keeps_its_place_from_a_welcome :
    answers (.hello 1) lastPlaceWelcome (fun u => decide ((u.port 1).outbound =
        List.replicate 31 (.fence 9) ++ [.welcome 5 .accepted] ∧
      u.agent 5 = agentOf .active (some 1) none 0 ∧
      u.agent 2 = { agentOf .active (some 1) none 0 with welcomeOwed := true })) = true := by
  decide +kernel

/-! ## States that meet the hypotheses of the statements, in the statements' order -/

theorem test_meets_CommandsKeepQueueAndRegisters : actsOnRegisters .lookup = false := rfl

/-- RESET_N held low. -/
def heldLow : State := { State.reset with resetHeld := true }

theorem test_meets_StepRunsTheFrontCommand : State.reset.pending = [] := rfl

theorem test_meets_ResetPinHoldsAndReleases :
    heldLow.resetHeld = true ∧ Instr.lookup ≠ .resetNRelease ∧
    (∀ w b, Instr.lookup ≠ .storedError w b) ∧ Instr.lookup ≠ .cplWordRead :=
  ⟨rfl, by decide, fun _ _ h => (by cases h), by decide⟩

theorem test_meets_WalkEndsWithInitialTables :
    State.reset.resetHeld = false ∧ State.reset.init = true ∧ State.reset.walkTicks < 200 ∧
    (∀ k, (State.reset.slot k).state = .free) ∧
    { State.reset with walkTicks := 199 }.walkTicks < 200 ∧
    200 ≤ { State.reset with walkTicks := 200 }.walkTicks := by decide

theorem test_meets_SoftResetClearsTheDirectory :
    (changing 0x4 .nothing).resetHeld = false ∧ (1 : Word).getLsbD 0 = true := by decide

theorem test_meets_WalkHoldsBackTheClaims :
    (2 : Word).getLsbD 0 = false ∧ State.reset.init = true := by decide

/-- A slot that has waited `elapsed`, the limit being 2, with the scrubber's interval and timer. -/
def waiting (elapsed : Nat) (reminderSent : Bool) (interval : BitVec 8) (timer : Nat) : State :=
  { changing 0x4 .nothing with recallLimit := 2, scrubInterval := interval, scrubTimer := timer }.setSlot 2
    { modifySlot 0x4 0 .nothing with elapsed := elapsed, reminderSent := reminderSent }

/-- The last tick before the reminder, the reminder's tick, one after it, the timeout's tick. -/
theorem test_meets_TickCountsEachTimer :
    (∀ e ∈ [14, 15, 30, 31], Serving (waiting e false 0 0) ∧ NothingDue (waiting e false 0 0) ∧
      ((waiting e false 0 0).slot 2).state = .active ∧
      ((waiting e false 0 0).slot 1).state ≠ .active) ∧
    (waiting 14 false 1 62).scrubAhead = false ∧ (waiting 14 false 1 62).scrubInterval ≠ 0 ∧
    (waiting 14 false 1 62).scrubTimer + 1 < (waiting 14 false 1 62).scrubInterval.toNat * 64 ∧
    Serving { waiting 14 false 1 63 with scrubAhead := true } ∧
    NothingDue { waiting 14 false 1 63 with scrubAhead := true } ∧
    (waiting 14 false 1 63).scrubInterval.toNat * 64 ≤ (waiting 14 false 1 63).scrubTimer + 1 ∧
    NothingDue (waiting 14 false 1 63) ∧ (waiting 14 false 0 0).scrubInterval = 0 ∧
    dueAt 2 { modifySlot 0x4 0 .nothing with elapsed := 15 } = .nothing ∧
    dueAt 2 { modifySlot 0x4 0 .nothing with elapsed := 16 } = .reminder ∧
    dueAt 2 { modifySlot 0x4 0 .nothing with elapsed := 31 } = .reminder ∧
    dueAt 2 { modifySlot 0x4 0 .nothing with elapsed := 32 } = .timeout ∧
    dueAt 1 { modifySlot 0x4 0 .nothing with elapsed := 15 } = .nothing := by decide +kernel

/-- A reminder and a timeout are outstanding, and a slot with nothing due between them: the tick takes both,
and then raises the elapsed time of the slots still ACTIVE. -/
theorem test_meets_TickCountsEachTimer_outstanding :
    let s := ((changing 0x4 .timeout).setSlot 0
      { modifySlot 0x20 0 .reminder with subject := .close 9 }).setSlot 1
      { modifySlot 0x20 0 .nothing with subject := .close 8 }
    Serving s ∧ s.dueOf 0 = .reminder ∧ s.dueOf 1 = .nothing ∧ s.dueOf 2 = .timeout ∧
    answers .timebaseTick s (fun u => decide ((u.slot 0).reminderSent = true ∧
      (u.slot 0).elapsed = 101 ∧ (u.slot 1).elapsed = 101 ∧ (u.slot 2).state = .free ∧
      (u.agent 2).state = .fenced ∧ u.completions.length = 1)) = true := by decide +kernel

theorem test_meets_ReminderGoesToSentAgents :
    Serving (changing 0x4 .reminder) ∧ (changing 0x4 .reminder).dueOf 2 = .reminder ∧
    (changing 0x4 .reminder).remindersOn 2 1 = [.recall 2 4 (.window 7 1) true] := by decide +kernel

theorem test_meets_TimeoutFencesTheLate :
    (∀ s ∈ [changing 0x4 .timeout, { changing 0x4 .timeout with slotWait := true },
        (changing 0x4 .timeout).setPort 1 (upPort [] (List.replicate 32 (.fence 9)))],
      Serving s ∧ s.dueOf 2 = .timeout ∧ (s.slot 2).pending ≠ 0 ∧
      subjectWindow (s.slot 2).subject = some 7 ∧
      (∀ a, hasAgent (s.slot 2).pending a = true → (s.agent a).state = .active) ∧
      let u := (agentsOf (s.slot 2).pending).foldl (fun u a => u.fence a) (s.lapse 2)
      (∀ j, j ≠ 2 → ¬ u.Emptied j) ∧ ∀ j, ¬ (u.completeSlot 2).1.Emptied j) ∧
    (changing 0x4 .timeout).slotWait = false ∧
    subjectWindow (ChangeSubject.close 3) = none := by decide +kernel

/-- The next tick reaches the scrub interval at window 7, with the key part and the changed bits given. -/
def scrubbing (w : Window) (flipped : List CodeBit) : State :=
  { (directory w).setWord 7 ⟨⟨0x80, ⟨true, false, false⟩, .strict⟩, flipped⟩ with
    scrubInterval := 1, scrubTimer := 63, scrubPosition := 7 }

theorem test_meets_ScrubReadByOutcome :
    (∀ l ∈ [[], [3], [3, 9]], Serving (scrubbing (liveWindow 0) l) ∧
      (scrubbing (liveWindow 0) l).scrubAhead = false ∧ (scrubbing (liveWindow 0) l).scrubInterval ≠ 0 ∧
      (scrubbing (liveWindow 0) l).scrubInterval.toNat * 64 ≤
        (scrubbing (liveWindow 0) l).scrubTimer + 1 ∧ Readable (scrubbing (liveWindow 0) l) 7 l ∧
      Readable (scrubbing Window.initial l) 7 l) ∧
    ((scrubbing (liveWindow 0) [3, 9]).window 7).state ≠ .free ∧
    ((scrubbing Window.initial [3, 9]).window 7).state = .free ∧
    ((scrubbing { liveWindow 0 with poisoned := true } [3, 9]).window 7).poisoned = true ∧
    { scrubbing (liveWindow 0) [3] with scrubAhead := true }.scrubAhead = true ∧
    { scrubbing (liveWindow 0) [3] with scrubInterval := 0 }.scrubInterval = 0 ∧
    { scrubbing (liveWindow 0) [3] with scrubTimer := 62 }.scrubTimer + 1 <
      (scrubbing (liveWindow 0) [3]).scrubInterval.toNat * 64 ∧
    [3, 9].Pairwise (· < ·) := by decide +kernel

/-- A port in TRAINING, with its two flags. -/
def training (readySent partnerReady : Bool) : State :=
  withPort ⟨.training, .training, readySent, partnerReady, [], [], if partnerReady then 4 else 0, 0⟩

theorem test_meets_ReadyArrivesInTraining :
    (training false false).resetHeld = false ∧ ((training false false).port 1).state = .training ∧
    ((training false false).port 1).readySent = false ∧
    ((training true false).port 1).state = .training ∧ ((training true false).port 1).readySent = true ∧
    decodeFrame (buildFrame 0x01 0 [1]) = .ready 1 ∧
    decodeFrame (buildFrame 0x01 0 [32]) = .ready 32 := by decide +kernel

theorem test_meets_CreditAndReinitArrive :
    (withPort (upPort [] [])).resetHeld = false ∧ ((withPort (upPort [] [])).port 1).state = .up ∧
    decodeFrame (buildFrame 0x02 0 [1]) = .credit 1 ∧
    decodeFrame (buildFrame 0x02 0 [24]) = .credit 24 ∧
    ((withPort (upPort [] [])).port 1).partnerCredits + 24 ≤ 32 ∧
    decodeFrame reinitFrame = .reinit ∧ ((training true true).port 1).state = .training := by
  decide +kernel

theorem test_meets_MessagesJoinOrAreDiscarded :
    ((withPort (upPort [] [])).port 1).state = .up ∧
    decodeFrame (buildFrame 0x10 2 []) = .agent (.hello 2) ∧
    ((withPort { upPort (List.replicate 9 (.hello 2)) [] with returnedOwed := 6 }).port 1).inbound.length
      + ((withPort { upPort [] [] with returnedOwed := 6 }).port 1).returnedOwed < 16 ∧
    ((withPort (reinitRecord .training)).port 1).state = .reinit ∧ (served.port 1).state = .disabled := by
  decide +kernel

/-- Each kind of violation, in the state of the port in which it arises. -/
theorem test_meets_ViolationTakesThePortDown :
    ((withPort (upPort [] [])).port 1).state = .up ∧
    violationOf (upPort [] []) [] = some .check ∧
    violationOf (upPort [] []) (buildFrame 0x25 0 []) = some .unknownKind ∧
    violationOf (upPort [] []) (buildFrame 0x03 0 [0]) = some .badLength ∧
    violationOf (upPort [] []) (buildFrame 0x02 0 [25]) = some .badField ∧
    violationOf (upPort [] []) readyFrame = some .outOfState ∧
    violationOf { upPort [] [] with returnedOwed := 16 } (buildFrame 0x10 2 []) = some .overrun ∧
    ((training false false).port 1).state = .training ∧
    violationOf ((training false false).port 1) (buildFrame 0x02 0 [1]) = some .outOfState ∧
    violationOf ((training false false).port 1) (buildFrame 0x10 2 []) = some .outOfState := by
  decide +kernel

/-- The check word of a frame carries the CRC-16 of the words before it. -/
abbrev Checked (f : Frame) : Prop :=
  f = f.dropLast ++ [f.getLastD 0] ∧ f.dropLast ≠ [] ∧
    (f.getLastD 0).toNat % 2 ^ 16 = (crc16 f.dropLast).toNat

theorem unchecked (f : Frame)
    (h : f.length < 2 ∨ (f.getLastD 0).toNat % 2 ^ 16 ≠ (crc16 f.dropLast).toNat) :
    ¬ ∃ ws check, f = ws ++ [check] ∧ ws ≠ [] ∧ check.toNat % 2 ^ 16 = (crc16 ws).toNat := by
  rintro ⟨ws, c, rfl, hw, hc⟩
  rcases h with h | h
  · have := List.length_pos_iff.mpr hw
    rw [List.length_append, List.length_singleton] at h
    omega
  · rw [List.getLastD_concat, List.dropLast_concat] at h
    exact h hc

/-- A frame with no check word, and one whose check word is wrong in its lowest bit. -/
theorem test_meets_ViolationTakesThePortDown_check :
    ∀ f ∈ [[], [0x10050200], [0x10050200, 0x12F4]],
      ¬ ∃ ws check, f = ws ++ [check] ∧ ws ≠ [] ∧ check.toNat % 2 ^ 16 = (crc16 ws).toNat := by
  have h : ∀ f ∈ [[], [0x10050200], [0x10050200, 0x12F4]],
      f.length < 2 ∨ (f.getLastD 0).toNat % 2 ^ 16 ≠ (crc16 f.dropLast).toNat := by decide +kernel
  exact fun f hf => unchecked f (h f hf)

/-- Frames that pass check 1: of a kind that is unknown or only sent, of a wrong length word or word count,
of a field out of range, and good ones, at the ends of the ranges. -/
theorem test_meets_ViolationTakesThePortDown_frames :
    (∀ kind ∈ [0x00, 0x04, 0x0F, 0x15, 0x20, 0x25, 0xFF], Checked (buildFrame kind 0 []) ∧
      violationOf (upPort [] []) (buildFrame kind 0 []) = some .unknownKind) ∧
    (∀ f ∈ [buildFrame 0x10 5 [0], buildFrame 0x01 0 [], [0x10050300, (crc16 [0x10050300]).zeroExtend 32]],
      Checked f ∧ violationOf (upPort [] []) f = some .badLength) ∧
    (∀ f ∈ [buildFrame 0x01 0 [0], buildFrame 0x01 0 [33], buildFrame 0x02 0 [0], buildFrame 0x02 0 [33],
        buildFrame 0x10 32 [], buildFrame 0x14 255 [9], buildFrame 0x12 31 [0x30, 0]],
      Checked f ∧ violationOf (upPort [] []) f = some .badField) ∧
    (∀ f ∈ [buildFrame 0x02 0 [1], buildFrame 0x02 0 [24], reinitFrame, buildFrame 0x10 31 [],
        buildFrame 0x11 0 [], buildFrame 0x12 31 [0x20, 0], buildFrame 0x13 31 [9],
        buildFrame 0x14 31 [9]],
      Checked f ∧ violationOf (upPort [] []) f = none) ∧
    (∀ f ∈ [buildFrame 0x01 0 [1], buildFrame 0x01 0 [32]], Checked f ∧
      violationOf ((training false false).port 1) f = none ∧
      violationOf (upPort [] []) f = some .outOfState) := by decide +kernel

/-- A request of agent 2 waits on the replay list in entry 0. -/
def replaying (r : Request) (s : State) : State :=
  { s.setEntry 0 ⟨.replay, r, 1, 7⟩ with replayList := [0] }

/-- A read of page 1000h by an agent. -/
def readBy (a : AgentId) : Request := ⟨a, 1, 3, 0x1000, .read⟩

/-- Agent 2 with a record on port 1, PURGING when it has a target, and nothing else in the directory. -/
def alone (a : Agent) : State :=
  { (withPort (upPort [] [])).setAgent 2 a with
    purgeSet := if a.target = none then 0 else oneAgent 2 }

/-- An agent of each kind that R41 tells apart, the PURGING ones with and without something left. -/
def reinitAgents : List Agent :=
  [agentOf .active (some 1) none 1, agentOf .active (some 1) none 0,
    agentOf .purging (some 1) (some .active) 1, agentOf .purging (some 1) (some .absent) 1,
    agentOf .purging (some 1) (some .fenced) 1, agentOf .fenced (some 1) none 0,
    agentOf .active (some 0) none 1]

theorem test_meets_ReinitPurgesThePort :
    ∀ a ∈ reinitAgents, PoolListed (replaying (readBy 2) (alone a)) ∧
      PurgesTracked (replaying (readBy 2) (alone a)) := by
  have h : ∀ a ∈ reinitAgents, ∀ e : EntryId, (e ∈ [(0 : EntryId)] ↔
      ((replaying (readBy 2) (alone a)).entry e).state = .replay) ∧
      ((replaying (readBy 2) (alone a)).entry e).state ≠ .parked := by decide +kernel
  refine fun a ha => ⟨⟨?_, fun w => List.nodup_nil, fun e => (h a ha e).1,
    fun e w => ⟨fun hm => absurd hm List.not_mem_nil, fun hp => absurd hp.1 (h a ha e).2⟩⟩, ?_⟩
  · exact (by decide : [(0 : EntryId)].Nodup)
  · revert a
    unfold PurgesTracked QuietInWalk OwedKept
    decide +kernel

/-- Agent 2, ACTIVE on the port, is the last, or not, that a MODIFY or a CLOSE waits for: the first completes
with DONE in the claim, and the second goes on. -/
theorem test_meets_ReinitPurgesThePort_changes :
    (let s := changing 0x4 .nothing
     (s.agent 2).port = some 1 ∧ (s.agent 2).state = .active ∧ s.AwaitedAt 2 7 ∧ s.slotWait = false ∧
     (s.enterReinit 1 .disabled).completions = [⟨0x11, .done, 0x55, .modified 7 4 0 2 false⟩] ∧
     (s.enterReinit 1 .disabled).agent 2 = Agent.initial ∧
     (s.enterReinit 1 .disabled).port 1 = reinitRecord .disabled) ∧
    (let s := (changing 0x24 .nothing).setAgent 5 (agentOf .active (some 0) none 1)
     ((s.enterReinit 1 .training).slot 2).pending = 0x20 ∧
     ((s.enterReinit 1 .training).window 7).holders = 0x20 ∧
     (s.enterReinit 1 .training).completions = []) ∧
    (let s := closing 0x4
     (s.slot 2).state = .active ∧ hasAgent (s.slot 2).pending 2 = true ∧ ¬ s.AwaitedAt 2 7 ∧
     ((s.enterReinit 1 .training).context 3).state = .free) := by decide +kernel

theorem test_meets_ReadyAndReinitDepart :
    Serving (training false false) ∧ ((training false false).port 1).partnerReady = false ∧
    ((training false true).port 1).readySent = false ∧ ((training false true).port 1).partnerReady = true ∧
    ((withPort (reinitRecord .training)).port 1).destination = .training ∧
    ((withPort (reinitRecord .disabled)).port 1).state = .reinit ∧
    ((withPort (reinitRecord .disabled)).port 1).destination = .disabled := by decide +kernel

theorem test_meets_CreditsAndMessagesDepart :
    0 < ((withPort { upPort [] [.fence 2] with returnedOwed := 16 }).port 1).returnedOwed ∧
    ((withPort (upPort [] [.fence 2])).port 1).outbound = .fence 2 :: [] ∧
    ((withPort (upPort [] [.fence 2])).port 1).returnedOwed = 0 ∧
    0 < ((withPort { upPort [] [.fence 2] with partnerCredits := 1 }).port 1).partnerCredits ∧
    ((withPort { upPort [] [.fence 2] with partnerCredits := 0 }).port 1).partnerCredits = 0 := by
  decide +kernel

/-- Agent 5 is owed a WELCOME and agent 2 an unsent RECALL, with `n` messages in port 1's queue. -/
def owing (n : Nat) : State :=
  (((changing 0x4 .nothing).setSlot 2 (modifySlot 0x4 0x4 .nothing)).setAgent 5
    { agentOf .active (some 1) none 0 with welcomeOwed := true }).setPort 1
    (upPort [] (List.replicate n (.fence 9)))

theorem test_meets_RefillServesTheWaiting :
    (∀ n ∈ [30, 31, 32], Serving (owing n) ∧ ((owing n).port 1).state = .up ∧
      (owing n).waitingOn 1 = [.welcome 5 .accepted, .recall 2 4 (.window 7 1) false] ∧
      OwedKept (owing n)) ∧
    ((owing 30).agent 9).state ≠ .active ∧ ((owing 30).agent 9).port ≠ some 1 ∧
    ((owing 30).slot 1).state ≠ .active := by
  unfold OwedKept
  decide +kernel

/-- A HELLO of agent 2 at the head of port 1, with agent 2's record. -/
def greeted (a : Agent) : State := ((withPort (upPort [.hello 2] [])).setAgent 2 a)

theorem test_meets_HelloByAgentState :
    (∀ a ∈ [Agent.initial, agentOf .fenced none none 0, agentOf .fenced (some 1) none 0,
        agentOf .purging (some 1) (some .fenced) 1, agentOf .purging (some 1) (some .absent) 1,
        agentOf .purging (some 1) (some .active) 1, agentOf .active (some 0) none 0,
        agentOf .active (some 1) none 0, agentOf .active (some 1) none 1],
      Serving (greeted a) ∧ (greeted a).HasRoom 1 ∧ ((greeted a).port 1).inbound = .hello 2 :: [] ∧
      (greeted a).agent 2 = a) ∧
    (∀ n ∈ [0, 1], Unencumbered (greeted (agentOf .active (some 1) none n)) 2 ∧
      Settled (greeted (agentOf .active (some 1) none n))) ∧
    let s := delivered (changing 0x4 .nothing) (.hello 2)
    Serving s ∧ s.HasRoom 1 ∧ (s.agent 2).state = .active ∧ (s.agent 2).port = some 1 ∧
      hasAgent (s.slot 2).pending 2 = true := by decide +kernel

/-- The two claims in which another message would take the last place: without the place kept, the WELCOME of
the HELLO's agent would stay owed. -/
theorem test_meets_HelloByAgentState_kept :
    (∀ x ∈ [(lastPlaceRecall, (2 : AgentId)), (lastPlaceWelcome, 5)],
      Serving x.1 ∧ x.1.HasRoom 1 ∧ (x.1.port 1).inbound = .hello x.2 :: [] ∧
      (x.1.agent x.2).state = .active ∧ (x.1.agent x.2).port = some 1 ∧
      let same := ((((x.1.tookFrom 1 []).purgeStart x.2 .active).settle none false).reconsider none)
      (same.agent x.2).state ≠ .purging ∧ (same.agent x.2).welcomeOwed = true) ∧
    let same := (((((greeted (agentOf .active (some 1) none 1)).tookFrom 1 []).purgeStart 2 .active).settle
      none false).reconsider none)
    (same.agent 2).state = .purging := by decide +kernel

theorem test_meets_HelloByAgentState_named :
    ChangesNamed lastPlaceRecall ∧ ChangesNamed lastPlaceWelcome :=
  ⟨changesNamed_of_7 (r := liveWindow 0x24) (by decide +kernel) (by decide) (fun k hk => by cases hk),
   changesNamed_of_7 (r := liveWindow 0x24) (by decide +kernel) (by decide) (fun k hk => by cases hk)⟩

theorem test_meets_GoodbyeByAgentState :
    ∀ a ∈ [Agent.initial, agentOf .fenced (some 1) none 0, agentOf .active (some 0) none 0,
        agentOf .purging (some 1) (some .active) 1, agentOf .purging (some 1) (some .fenced) 1,
        agentOf .active (some 1) none 0, agentOf .active (some 1) none 1],
      let s := (withPort (upPort [.goodbye 2] [])).setAgent 2 a
      Serving s ∧ (s.port 1).state = .up ∧ (s.port 1).inbound = .goodbye 2 :: [] ∧ s.agent 2 = a ∧
      Settled s ∧ Unencumbered s 2 := by decide +kernel

theorem test_meets_ReleaseHandsBackAHolding :
    ¬ (delivered (directory (liveWindow 0x4)) (.release 2 7 0)).ReleaseHolds 1 2 7 0 ∧
    (∀ s ∈ [directory (liveWindow 0x4), changing 0x24 .nothing], ∀ x ∈ [agentOf .active (some 1) none 1,
        agentOf .purging (some 1) (some .absent) 2, agentOf .purging (some 1) (some .active) 1],
      let t := delivered (s.setAgent 2 x) (.release 2 7 1)
      Serving t ∧ t.ReleaseHolds 1 2 7 1 ∧ Settled t ∧ (t.port 1).state = .up ∧
      (t.port 1).inbound = .release 2 7 1 :: []) ∧
    ((directory (liveWindow 0x4)).window 7).slot = none ∧
    ((changing 0x24 .nothing).window 7).slot = some 2 ∧
    dropAgent ((changing 0x24 .nothing).slot 2).pending 2 ≠ 0 := by decide +kernel

/-- Window 7 CHANGING with two agents to answer, and with agent 2 alone. -/
def answering : List State := [changing 0x24 .nothing, changing 0x4 .nothing]

/-- A RELEASE on a CHANGING window, of an agent that is not the last to answer and of the last. -/
theorem test_meets_ReleaseHandsBackAHolding_answer :
    (∀ u ∈ answering, let s := delivered u (.release 2 7 1)
      Serving s ∧ s.ReleaseHolds 1 2 7 1 ∧ (s.window 7).slot = some 2 ∧
      subjectWindow (s.slot 2).subject = some 7 ∧
      (s.setPort 1 { s.port 1 with inbound := [.recallAck 2 (s.slot 2).serial] }).matchAck 1 2
        (s.slot 2).serial = some 2) ∧
    ∀ u ∈ answering, TablesCanonical (delivered u (.release 2 7 1)) := by
  have h : ∀ u ∈ answering, ∀ p ∈ (delivered u (.release 2 7 1)).grants, p.2.flipped = [] := by
    decide +kernel
  refine ⟨by decide +kernel, fun x hx => ?_⟩
  have e : ∀ w, ((delivered x (.release 2 7 1)).word w).flipped = [] := fun w =>
    tableGet_all (fun y => y.flipped = []) CodeWord.initial _ w rfl (h x hx)
  have c : ∀ u ∈ answering, let s := delivered u (.release 2 7 1)
      TableWf Window.initial s.windows ∧ TableWf CodeWord.initial s.grants ∧ TableWf [] s.windowLists ∧
      TableWf Context.initial s.contexts ∧ TableWf Agent.initial s.agents ∧
      TableWf PoolEntry.initial s.pool ∧ TableWf [] s.parkOrders ∧ TableWf Slot.initial s.slots ∧
      TableWf Port.initial s.ports ∧ TableWf [] s.lanes := by
    unfold TableWf
    decide +kernel
  obtain ⟨c1, c2, c3, c4, c5, c6, c7, c8, c9, c10⟩ := c x hx
  exact ⟨c1, c2, c3, c4, c5, c6, c7, c8, c9, c10, fun w => e w ▸ List.Pairwise.nil⟩

theorem test_meets_AckRemovesThePendingAgent :
    (delivered (changing 0x24 .nothing) (.recallAck 2 3)).matchAck 1 2 3 = none ∧
    (∀ s ∈ [changing 0x24 .nothing, closing 0x24],
      Serving (delivered s (.recallAck 2 4)) ∧ Settled (delivered s (.recallAck 2 4)) ∧
      (delivered s (.recallAck 2 4)).matchAck 1 2 4 = some 2 ∧
      dropAgent (s.slot 2).pending 2 ≠ 0) ∧
    (let s := delivered (changing 0x24 .nothing) (.recallAck 2 4)
     (s.agent 2).state = .active ∧ (s.agent 2).port = some 1 ∧ (s.slot 2).state = .active ∧
     (s.slot 2).serial = 4 ∧ hasAgent (s.slot 2).pending 2 = true ∧
     (∀ j, (s.slot j).state = .active → j = 2) ∧ s.matchAck 0 2 4 = none ∧ s.matchAck 1 9 4 = none) ∧
    subjectWindow ((closing 0x24).slot 2).subject = none ∧
    subjectWindow ((changing 0x24 .nothing).slot 2).subject = some 7 ∧
    hasAgent ((changing 0x24 .nothing).window 7).holders 2 = true := by decide +kernel

theorem test_meets_LastAckCompletesTheChange :
    (let s := delivered (changing 0x4 .nothing) (.recallAck 2 4);
      Serving s ∧ Settled s ∧ s.slotWait = false ∧ (s.port 1).state = .up ∧
      (s.port 1).inbound = .recallAck 2 4 :: [] ∧ s.matchAck 1 2 4 = some 2 ∧
      (s.slot 2).subject = .modify 7 ∧ (s.slot 2).pending = oneAgent 2 ∧
      (s.window 7).holders = oneAgent 2) ∧
    ∀ x ∈ [ChangeSubject.modify 7, .retire 7, .close 3, .leave 3 2],
      let s := delivered ((changing 0x4 .nothing).setSlot 2
        { modifySlot 0x4 0 .nothing with subject := x }) (.recallAck 2 4)
      Serving s ∧ Settled s ∧ (s.port 1).state = .up ∧ (s.port 1).inbound = .recallAck 2 4 :: [] ∧
      s.matchAck 1 2 4 = some 2 ∧ (s.slot 2).pending = oneAgent 2 ∧
      hasAgent (s.window 7).holders 2 = true ∧
      ∀ j, ¬ ((((s.tookFrom 1 []).dropAnswer 2 2).completeSlot 2).1.Emptied j) := by decide +kernel

/-- The last to answer of a WINDOW-scope change is no holder of its window. -/
theorem test_meets_LastAckCompletesTheChange_no_holder :
    ∀ x ∈ [ChangeSubject.modify 7, .retire 7],
      let s := delivered (((changing 0x4 .nothing).setWindow 7
        { liveWindow 0 with state := .changing, slot := some 2 }).setSlot 2
        { modifySlot 0x4 0 .nothing with subject := x }) (.recallAck 2 4)
      Serving s ∧ Settled s ∧ (s.port 1).state = .up ∧ (s.port 1).inbound = .recallAck 2 4 :: [] ∧
      s.matchAck 1 2 4 = some 2 ∧ (s.slot 2).pending = oneAgent 2 ∧
      subjectWindow (s.slot 2).subject = some 7 ∧ hasAgent (s.window 7).holders 2 = false ∧
      ∀ j, ¬ ((((s.tookFrom 1 []).dropPending 2 2).completeSlot 2).1.Emptied j) := by decide +kernel

/-- A slot of each kind. -/
theorem test_meets_CompletionByKind :
    (∀ x ∈ [ChangeSubject.modify 7, .retire 7, .close 3, .leave 3 2],
      let s := (changing 0x4 .nothing).setSlot 2 { modifySlot 0 0 .nothing with subject := x }
      (s.slot 2).subject = x ∧ s.Emptied 2 ∧ (∀ j, j ≠ 2 → ¬ s.Emptied j) ∧
      ∀ j, ¬ (s.completeSlot 2).1.Emptied j) ∧
    7 ∈ (changing 0x4 .nothing).windowList 3 := by decide +kernel

/-- Window 7 under a MODIFY in slot 2 that waits for agent 2 alone, and the LEAVE of agent 2 in slot 1 with no
agent left to answer. -/
def leaving : State :=
  (changing 0x4 .nothing).setSlot 1
    { modifySlot 0 0 .nothing with subject := .leave 3 2, tag := 0x66, serial := 3 }

theorem leaving_named : ChangesNamed leaving :=
  changesNamed_of_7 (r := { liveWindow 0x4 with state := .changing, slot := some 2 }) (by decide +kernel)
    (by decide) fun k hk => by
      rw [← Option.some.inj hk]
      decide +kernel

/-- The LEAVE's completion empties the MODIFY, and both complete, the LEAVE's record first. -/
theorem test_meets_CompletionByKind_several :
    leaving.Emptied 1 ∧ ¬ leaving.Emptied 2 ∧ leaving.LeavesWindow 2 7 ∧ ¬ leaving.LeavesWindow 5 7 ∧
    (leaving.window 7).slot = some 2 ∧ subjectWindow (leaving.slot 2).subject = some 7 ∧
    subjectWindow (leaving.slot 1).subject = none ∧
    (leaving.settle none false).completions =
      [⟨0x04, .done, 0x66, .leave 3 2 3 0⟩, ⟨0x11, .done, 0x55, .modified 7 4 0 2 false⟩] ∧
    ((leaving.settle none false).agent 2).held = 0 := by decide +kernel

theorem test_meets_StepKeepsSubsets_named : ChangesNamed leaving := leaving_named

/-- The RECALL of a slot of each kind, first and reminder. -/
theorem test_meets_FillStartsTheChange_recall :
    let s := fun x : ChangeSubject =>
      (changing 0x4 .nothing).setSlot 2 { modifySlot 0x4 0 .nothing with subject := x }
    (∀ x ∈ [ChangeSubject.modify 7, .retire 7], ∀ flag : Bool,
      (s x).recallMessage 2 5 flag = .recall 5 4 (.window 7 1) flag) ∧
    ∀ x ∈ [ChangeSubject.close 3, .leave 3 5], ∀ flag : Bool,
      (s x).recallMessage 2 5 flag = .recall 5 4 (.context 3) flag := by decide +kernel

/-- A fill of each kind, and the slot that holds its serial. -/
theorem test_meets_FillStartsTheChange :
    (∀ x ∈ [ChangeSubject.modify 7, .retire 7, .close 3, .leave 3 2],
      (((directory (liveWindow 0x4)).fillSlot none 0 x noValues 9).slot 0).subject = x) ∧
    ((changing 0x4 .nothing).slot 2).state = .active := by decide +kernel

/-- A MODIFY_WINDOW of window 7: expected version 1, the length given, global base 90h, all rights. -/
def modifyRecord (length version : Nat) : CmdRecord :=
  ⟨0x11000077, 0x00270007, BitVec.ofNat 32 version, BitVec.ofNat 32 length, 0x90, 0⟩

/-- An ADD_WINDOW in context 3 of one page at the local base given. -/
def addRecord (base globalHigh : Nat) : CmdRecord :=
  ⟨0x10000077, 0x00070003, BitVec.ofNat 32 base, 1, 0x80, BitVec.ofNat 32 globalHigh⟩

/-- Every slot is ACTIVE, under changes of other contexts. -/
def slotsFull (s : State) : State :=
  { s with slots := allSlots.map fun k => (k, { modifySlot 0x4 0 .nothing with subject := .close 9 }) }

/-- The values of `modifyRecord 1 1`. -/
def newPage : NewValues := ⟨1, ⟨0x90, ⟨true, true, true⟩, .cached⟩⟩

/-- A command of each kind that needs a slot in `directory (liveWindow 0x4)`, with its change. -/
def slotCommands : List (CmdRecord × ChangeSubject) :=
  [(modifyRecord 1 1, .modify 7), (record 0x12 7 0, .retire 7), (record 0x02 3 0, .close 3),
    (record 0x04 3 2, .leave 3 2)]

/-- What holds of window 7 holds of every window of a list that is window 7 alone. -/
theorem only_window_7 {l : List WindowId} {q : WindowId → Prop} (h : l = [7]) (h7 : q 7) :
    ∀ w ∈ l, q w := by
  subst h
  exact fun w hw => List.mem_singleton.mp hw ▸ h7

theorem test_meets_SlotWaitHoldsTheQueue :
    (∀ x ∈ slotCommands, CanTake (commanded (slotsFull (directory (liveWindow 0x4))) x.1) x.1 [] ∧
      NeedsSlot (commanded (slotsFull (directory (liveWindow 0x4))) x.1) x.1 x.2 newPage) ∧
    (∀ k, ((slotsFull (directory (liveWindow 0x4))).slot k).state = .active) ∧
    (∀ x ∈ slotCommands,
      let s := { commanded (changing 0x4 .nothing) x.1 with slotWait := true }
      Serving s ∧ s.slotWait = true ∧ (s.slot 0).state = .free ∧ s.HasReservation ∧
      s.cmdQueue = x.1 :: [] ∧ ∃ kind ∈ [CommandKind.modifyWindow, .retireWindow, .closeContext, .leave],
        recordKind x.1 = some kind) ∧
    served.fenceWait = [] ∧ served.slotWait = false ∧
    16 ≤ { served with reservations := 16 }.completions.length
      + { served with reservations := 16 }.reservations := by
  refine ⟨?_, by decide +kernel, by decide +kernel, rfl, rfl, by decide⟩
  simp only [slotCommands, List.forall_mem_cons, List.not_mem_nil, false_implies, implies_true,
    and_true, NeedsSlot]
  refine ⟨⟨?_, ?_⟩, ⟨?_, ?_⟩, ⟨?_, ?_, ?_, ?_, only_window_7 rfl ?_, ?_, 7, ?_⟩,
    ⟨?_, ?_, ?_, ?_, ?_, ?_, ?_, 7, ?_⟩⟩ <;> decide +kernel

theorem test_meets_ChangesTakeTheLowestSlot :
    (∀ x ∈ slotCommands, CanTake (commanded (directory (liveWindow 0x4)) x.1) x.1 [] ∧
      NeedsSlot (commanded (directory (liveWindow 0x4)) x.1) x.1 x.2 newPage) ∧
    ((directory (liveWindow 0x4)).slot 0).state = .free ∧
    Settled (commanded (directory (liveWindow 0x4)) (modifyRecord 1 1)) ∧
    (∀ a, hasAgent (liveWindow 0x4).holders a = true →
      ((directory (liveWindow 0x4)).agent a).state = .active) := by
  refine ⟨?_, by decide +kernel, by decide +kernel, by decide +kernel⟩
  simp only [slotCommands, List.forall_mem_cons, List.not_mem_nil, false_implies, implies_true,
    and_true, NeedsSlot]
  refine ⟨⟨?_, ?_⟩, ⟨?_, ?_⟩, ⟨?_, ?_, ?_, ?_, only_window_7 rfl ?_, ?_, 7, ?_⟩,
    ⟨?_, ?_, ?_, ?_, ?_, ?_, ?_, 7, ?_⟩⟩ <;> decide +kernel

/-! ### Lookups -/

theorem test_meets_LookupChecksInOrder :
    let s := directory (liveWindow 0x4)
    s.lookupChecks 1 (readBy 9) = .deny .notJoined ∧ s.lookupChecks 0 (readBy 2) = .deny .notJoined ∧
    (s.setAgent 2 (agentOf .fenced (some 1) none 0)).lookupChecks 1 (readBy 2) = .deny .fenced ∧
    (s.setAgent 2 (agentOf .purging (some 1) (some .absent) 1)).lookupChecks 1 (readBy 2) =
      .deny .retry ∧
    s.lookupChecks 1 { readBy 2 with context := 4 } = .deny .noContext ∧
    (closing 0x4).lookupChecks 1 (readBy 2) = .deny .closing ∧
    (s.setContext 3 ⟨.opened, 0x20, 0, 1, none⟩).lookupChecks 1 (readBy 2) = .deny .notMember ∧
    (s.setContext 3 ⟨.opened, 0x24, 0x4, 1, none⟩).lookupChecks 1 (readBy 2) = .deny .notMember ∧
    s.lookupChecks 1 { readBy 2 with page := 0x0FFF } = .deny .noWindow ∧
    s.lookupChecks 1 { readBy 2 with page := 0x1001 } = .deny .noWindow ∧
    s.lookupChecks 1 (readBy 2) = .live 7 ∧
    (changing 0x4 .nothing).lookupChecks 1 (readBy 2) = .changing 7 := by decide +kernel

/-- Window 7 covers its one page and neither page beside it, and no window covers a page of a context with
an empty list. -/
theorem test_meets_LookupChecksInOrder_covering :
    let s := directory (liveWindow 0x4)
    s.windowList 3 = [7] ∧ Covers (s.window 7) 0x1000 ∧ ¬ Covers (s.window 7) 0x0FFF ∧
    ¬ Covers (s.window 7) 0x1001 ∧ s.covering 3 0x1000 = some 7 ∧ s.covering 3 0x0FFF = none ∧
    s.covering 3 0x1001 = none ∧ s.windowList 4 = [] ∧ s.covering 4 0x1000 = none := by decide +kernel

/-- A TRANSLATE of the request at the head of port 1. -/
def asked (s : State) (r : Request) : State := delivered s (.translate r)

theorem test_meets_ArbiterServesInRotation :
    let s := replaying (readBy 2) (directory (liveWindow 0x4))
    s.replayList = 0 :: [] ∧ s.HasRoom (s.entry 0).port ∧
    (asked (directory (liveWindow 0x4)) (readBy 2)).replayHead = none ∧
    (asked (directory (liveWindow 0x4)) (readBy 2)).portToServe = some 1 ∧
    (directory (liveWindow 0x4)).portToServe = none := by decide +kernel

/-- A replay head passed over, its port being full or not UP, and a port that holds a request, with its last
free place, or none: it is full, not UP, or its head is no TRANSLATE. -/
theorem test_meets_ArbiterServesInRotation_passed :
    (∀ x ∈ [upPort [.translate (readBy 2)] (List.replicate 32 (.fence 9)), reinitRecord .training],
      let s := replaying (readBy 2) ((directory (liveWindow 0x4)).setPort 1 x)
      s.replayList = [0] ∧ ¬ s.HasRoom (s.entry 0).port ∧ s.replayHead = none ∧ s.portRequest 1 = none) ∧
    (replaying (readBy 2) ((directory (liveWindow 0x4)).setPort 1
      (upPort [] (List.replicate 31 (.fence 9))))).replayHead = some 0 ∧
    (withPort (upPort [.translate (readBy 2)] (List.replicate 31 (.fence 9)))).portRequest 1 =
      some (readBy 2) ∧
    (withPort (upPort [.hello 2] [])).portRequest 1 = none := by decide +kernel

theorem test_meets_LookupDeniesOrGrants :
    (∀ r ∈ [readBy 2, readBy 5, readBy 9, { readBy 2 with kind := .write }],
      let s := asked (directory (liveWindow 0x4)) r
      Serving s ∧ s.portToServe = some 1 ∧ s.HasRoom 1 ∧ (s.port 1).inbound = .translate r :: [] ∧
      Readable s 7 []) ∧
    let s := directory (liveWindow 0x4)
    s.lookupChecks 1 (readBy 9) = .deny .notJoined ∧ s.lookupChecks 1 (readBy 2) = .live 7 ∧
    s.lookupChecks 1 (readBy 5) = .live 7 ∧ hasAgent (s.window 7).holders 2 = true ∧
    hasAgent (s.window 7).holders 5 = false ∧ admits (s.word 7).written.rights .read = true ∧
    admits (s.word 7).written.rights .write = false := by decide +kernel

theorem test_meets_LookupOfAnErroredWindow :
    (∀ l ∈ [[3], [3, 9]], let s := asked (scrubbing (liveWindow 0x4) l) (readBy 2)
      Serving s ∧ s.portToServe = some 1 ∧ s.HasRoom 1 ∧ s.lookupChecks 1 (readBy 2) = .live 7 ∧
      (s.window 7).state = .live ∧ Readable s 7 l ∧ hasAgent (s.window 7).holders 2 = true ∧
      admits (s.word 7).written.rights .read = true) ∧
    let s := asked (directory { liveWindow 0x4 with poisoned := true }) (readBy 2)
    s.portToServe = some 1 ∧ s.lookupChecks 1 (readBy 2) = .live 7 ∧ (s.window 7).poisoned = true := by
  decide +kernel

/-- Every pool entry is PARKED. -/
def poolFull (s : State) : State :=
  { s with pool := allEntries.map fun e => (e, ⟨.parked, readBy 2, 1, 7⟩) }

theorem test_meets_LookupParksAtAChangingWindow :
    (∀ s ∈ [asked (changing 0x4 .nothing) (readBy 2), poolFull (asked (changing 0x4 .nothing) (readBy 2))],
      Serving s ∧ s.portToServe = some 1 ∧ s.HasRoom 1 ∧ s.lookupChecks 1 (readBy 2) = .changing 7) ∧
    ((changing 0x4 .nothing).entry 0).state = .free ∧
    ∀ e, ((poolFull (changing 0x4 .nothing)).entry e).state ≠ .free := by decide +kernel

theorem test_meets_ReplayIsAnsweredOrParksAgain :
    (∀ r ∈ [readBy 2, readBy 5, readBy 9, { readBy 2 with kind := .write }],
      ∀ s ∈ [directory (liveWindow 0x4), changing 0x4 .nothing, scrubbing (liveWindow 0x4) [3],
        scrubbing (liveWindow 0x4) [3, 9], directory { liveWindow 0x4 with poisoned := true }],
      let t := replaying r s
      Serving t ∧ t.replayList = 0 :: [] ∧ t.HasRoom (t.entry 0).port ∧ (t.entry 0).request = r) ∧
    (directory (liveWindow 0x4)).lookupChecks 1 (readBy 9) = .deny .notJoined ∧
    (changing 0x4 .nothing).lookupChecks 1 (readBy 2) = .changing 7 ∧
    (∀ r ∈ [readBy 2, readBy 5, { readBy 2 with kind := .write }],
      ∀ l ∈ [[], [3], [3, 9]], let s := scrubbing (liveWindow 0x4) l
      s.lookupChecks 1 r = .live 7 ∧ (s.window 7).state = .live ∧ Readable s 7 l) ∧
    (directory { liveWindow 0x4 with poisoned := true }).lookupChecks 1 (readBy 2) = .live 7 ∧
    ((directory { liveWindow 0x4 with poisoned := true }).window 7).poisoned = true ∧
    hasAgent (liveWindow 0x4).holders 2 = true ∧ hasAgent (liveWindow 0x4).holders 5 = false ∧
    admits ⟨true, false, false⟩ .read = true ∧ admits ⟨true, false, false⟩ .write = false := by
  decide +kernel

/-! ### Purges -/

/-- Agent 2 is awaited at window 7, by a MODIFY or a RETIRE, or by a CLOSE at none; its request and another
agent's are in the pool; its port has a place, has none, or is not UP. -/
theorem test_meets_PurgeStartTakesTheAgentOut :
    (∀ x ∈ [ChangeSubject.modify 7, .retire 7],
      let s := (changing 0x24 .nothing).setSlot 2 { modifySlot 0x24 0x4 .nothing with subject := x }
      (s.slot 2).state = .active ∧ hasAgent (s.slot 2).pending 2 = true ∧ s.AwaitedAt 2 7 ∧
      ¬ s.AwaitedAt 2 8 ∧ hasAgent (s.window 7).holders 2 = true ∧
      (s.purgeStart 2 .absent).window 7 = { s.window 7 with holders := 0x20 } ∧
      ((s.purgeStart 2 .absent).agent 2).held = 0) ∧
    (let s := closing 0x24
     hasAgent (s.slot 2).pending 2 = true ∧ ¬ s.AwaitedAt 2 7 ∧
     ((s.purgeStart 2 .absent).slot 2).pending = 0x20 ∧
     ((s.purgeStart 2 .absent).window 7).holders = 0x24) ∧
    (let s := replaying (readBy 2) (alone (agentOf .active (some 1) none 1))
     (s.entry 0).state ≠ .free ∧ (s.entry 0).request.agent = 2 ∧ (s.entry 0).request.agent ≠ 5 ∧
     (s.purgeStart 2 .active).replayList = [] ∧ (s.purgeStart 5 .active).replayList = [0]) ∧
    (∀ n ∈ [0, 31, 32],
      let s := withPort (upPort [] (List.replicate n (.fence 9))) |>.setAgent 2
        (agentOf .active (some 1) none 1);
      (s.agent 2).port = some 1 ∧ (s.port 1).state = .up ∧ (s.port 1).outbound.length = n ∧
      ((s.purgeStart 2 .fenced).agent 2).fenceOwed = decide (n = 32)) ∧
    ((withPort (reinitRecord .training)).port 1).state ≠ .up := by decide +kernel

theorem test_meets_PurgeStartTakesTheAgentOut_listed :
    PoolListed (replaying (readBy 2) (alone (agentOf .active (some 1) none 1))) :=
  (test_meets_ReinitPurgesThePort _ List.mem_cons_self).1

/-- Agent 2 is PURGING with a target and a held count, and the walk stands at a record. -/
def purging (target : PurgeTarget) (n : Nat) (position : WindowId) : State :=
  { (directory (liveWindow 0x4)).setAgent 2 (agentOf .purging (some 1) (some target) n) with
    purgeSet := oneAgent 2, walkPosition := position }

/-- The visit of a record ends no purge. -/
def visiting (w : WindowId) : State := purging .absent 2 w

theorem test_meets_PurgeVisitRemovesTheSet :
    served.purgeSet = 0 ∧ Serving (visiting 7) ∧ (visiting 7).purgeSet ≠ 0 ∧ Settled (visiting 7) ∧
    (∀ a, hasAgent (visiting 7).purgeSet a = true → ((visiting 7).agent a).held ≠ 1) ∧
    ((visiting 7).window 7).state ≠ .free ∧ Serving (visiting 4095) ∧ Settled (visiting 4095) ∧
    ((visiting 4095).window 4095).state = .free := by decide +kernel

/-- A visit of a FREE record, and of a record that a member with one holding left does not hold. -/
theorem test_meets_PurgeVisitRemovesTheSet_not_last :
    ∀ s ∈ [purging .active 1 4095, (purging .active 1 7).setWindow 7 (liveWindow 0x20)],
      Serving s ∧ s.purgeSet ≠ 0 ∧ Settled s ∧ (s.agent 2).held = 1 ∧
      ∀ a, (s.agent a).state = .purging → (s.agent a).held = 1 →
        ¬ ((s.window s.walkPosition).state ≠ .free ∧ hasAgent s.purgeSet a = true ∧
          hasAgent (s.window s.walkPosition).holders a = true) := by decide +kernel

theorem test_meets_PurgeVisitRemovesTheSet_last :
    ∀ x ∈ [PurgeTarget.active, .absent, .fenced],
      let s := (purging x 1 7).setAgent 5 (agentOf .purging (some 1) (some .absent) 2)
      let t := { s with purgeSet := 0x24, fenceWait := [⟨9, 2⟩, ⟨8, 5⟩] }
      Serving t ∧ t.purgeSet ≠ 0 ∧ Settled t ∧ hasAgent t.purgeSet 2 = true ∧
      (t.agent 2).state = .purging ∧ (t.agent 2).held = 1 ∧ (t.window 7).state ≠ .free ∧
      hasAgent (t.window 7).holders 2 = true := by decide +kernel

/-! ### Commands of the command engine -/

theorem test_meets_OpenJoinAndBadForms :
    (∀ r ∈ [record 0x99 0 0, record 0x01 4 0, record 0x01 3 0, record 0x01 256 0, record 0x03 3 31,
        record 0x03 3 32, record 0x03 256 0],
      CanTake (commanded (directory (liveWindow 0x4)) r) r []) ∧
    recordKind (record 0x99 0 0) = none ∧ recordKind (record 0x01 4 0) = some .openContext ∧
    recordKind (record 0x03 3 31) = some .join ∧
    operand2 256 (record 0x01 255 0) = some 255 ∧ operand2 256 (record 0x01 256 0) = none ∧
    operand3 32 (record 0x03 3 31) = some 31 ∧ operand3 32 (record 0x03 3 32) = none ∧
    ((directory (liveWindow 0x4)).context 4).state = .free ∧
    ((directory (liveWindow 0x4)).context 3).state = .opened ∧ ((closing 0x4).context 3).state = .closing ∧
    hasAgent ((directory (liveWindow 0x4)).context 3).members 2 = true ∧
    hasAgent ((directory (liveWindow 0x4)).context 3).members 31 = false := by decide +kernel

/-- A MODIFY_WINDOW or ADD_WINDOW of each field given. -/
def valueRecord (kind operand rights cls length globalHigh globalLow : Nat) : CmdRecord :=
  ⟨wordOf [(24, kind), (0, 0x77)], wordOf [(20, cls), (16, rights), (0, operand)], 0x1000,
    BitVec.ofNat 32 length, BitVec.ofNat 32 globalLow, BitVec.ofNat 32 globalHigh⟩

/-- A record of every kind whose form fails, at the first operand out of range. -/
def badForms : List (CommandKind × CmdRecord) :=
  [(.openContext, record 0x01 256 0), (.closeContext, record 0x02 256 0), (.join, record 0x03 256 0),
    (.join, record 0x03 3 32), (.leave, record 0x04 256 0), (.leave, record 0x04 3 32),
    (.addWindow, valueRecord 0x10 256 1 0 1 0 0), (.addWindow, valueRecord 0x10 3 0 0 1 0 0),
    (.addWindow, valueRecord 0x10 3 1 3 1 0 0), (.addWindow, valueRecord 0x10 3 1 0 0 0 0),
    (.addWindow, valueRecord 0x10 3 1 0 0x1000001 0 0),
    (.addWindow, valueRecord 0x10 3 1 0 2 0xFF 0xFFFFFFFF),
    (.addWindow, ⟨0x10000077, 0x00010003, 0xFFFFFFFF, 0xF0000002, 0, 0⟩),
    (.modifyWindow, valueRecord 0x11 4096 1 0 1 0 0), (.modifyWindow, valueRecord 0x11 7 0 0 1 0 0),
    (.modifyWindow, valueRecord 0x11 7 1 3 1 0 0), (.modifyWindow, valueRecord 0x11 7 1 0 0 0 0),
    (.modifyWindow, valueRecord 0x11 7 1 0 2 0xFF 0xFFFFFFFF), (.retireWindow, record 0x12 4096 0),
    (.fenceAgent, record 0x20 32 0), (.unfenceAgent, record 0x21 32 0),
    (.queryWindow, record 0x30 4096 0), (.queryAgent, record 0x31 32 0),
    (.queryContext, record 0x32 256 0), (.portEnable, record 0x40 4 0),
    (.portDisable, record 0x41 4 0), (.portReset, record 0x42 4 0)]

theorem test_meets_OpenJoinAndBadForms_bad :
    (∀ x ∈ badForms, recordKind x.2 = some x.1 ∧
      CanTake (commanded (directory (liveWindow 0)) x.2) x.2 []) ∧
    ∀ x ∈ badForms, FormFails (commanded (directory (liveWindow 0)) x.2) x.2 x.1 := by
  refine ⟨by decide +kernel, ?_⟩
  simp only [badForms, List.forall_mem_cons, List.not_mem_nil, false_implies, implies_true, and_true,
    FormFails, ValuesFail]
  refine ⟨?_, ?_, ?_, ?_, ?_, ?_, ?_, ?_, ?_, ?_, ?_, ?_, ?_, Or.inl ?_, Or.inr ⟨7, ?_, ?_⟩,
    Or.inr ⟨7, ?_, ?_⟩, Or.inr ⟨7, ?_, ?_⟩, Or.inr ⟨7, ?_, ?_⟩,
    ?_, ?_, ?_, ?_, ?_, ?_, ?_, ?_, ?_⟩ <;> decide +kernel

theorem test_meets_CloseAndLeaveAtOnce :
    (∀ r ∈ [record 0x02 3 0, record 0x02 4 0, record 0x04 3 2, record 0x04 4 2, record 0x04 3 31],
      CanTake (commanded (directory (liveWindow 0)) r) r []) ∧
    recordKind (record 0x02 3 0) = some .closeContext ∧ recordKind (record 0x04 3 2) = some .leave ∧
    (changing 0x4 .nothing).windowList 3 = [7] ∧ ((changing 0x4 .nothing).window 7).state = .changing ∧
    (directory (liveWindow 0)).windowList 3 = [7] ∧
    ((directory (liveWindow 0)).window 7).state ≠ .changing ∧
    ((directory (liveWindow 0)).window 7).holders = 0 ∧
    hasAgent ((directory (liveWindow 0)).window 7).holders 2 = false ∧
    ((directory (liveWindow 0)).window 7).slot = none ∧
    ((directory (liveWindow 0)).context 3).leaving = 0 ∧
    ((directory (liveWindow 0)).setContext 3 ⟨.opened, 0x24, 0x4, 1, none⟩ |>.context 3).leaving ≠ 0 ∧
    ((changing 0x20 .nothing).window 7).slot = some 2 ∧
    hasAgent ((changing 0x20 .nothing).slot 2).pending 2 = false := by decide +kernel

/-- Every window of a list is LIVE, in another context. -/
def liveOnes (l : List WindowId) : State :=
  { served with windows := l.map fun w => (w, { liveWindow 0 with context := 9 }) }

theorem tableGet_map {n : Nat} {α : Type} (d v : α) (l : List (Fin n)) (i : Fin n) (h : i ∈ l) :
    tableGet d (l.map fun j => (j, v)) i = v := by
  induction l with
  | nil => simp at h
  | cons j l ih =>
    by_cases hj : j = i
    · simp [tableGet, hj]
    · rw [List.map_cons, tableGet, if_neg hj]
      exact ih ((List.mem_cons.mp h).resolve_left (Ne.symm hj))

theorem liveOnes_live (l : List WindowId) (w : WindowId) (h : w ∈ l) :
    ((liveOnes l).window w).state ≠ .free := by
  have e : (liveOnes l).window w = { liveWindow 0 with context := 9 } :=
    tableGet_map Window.initial _ l w h
  rw [e]
  decide

theorem test_meets_AddWindowMakesALiveRecord_full (w : WindowId) :
    ((liveOnes (List.finRange 4096)).window w).state ≠ .free := liveOnes_live _ w (List.mem_finRange w)

theorem test_meets_AddWindowMakesALiveRecord :
    (∀ r ∈ [addRecord 0x1001 0, addRecord 0x1000 0, addRecord 0x1001 0xFF],
      CanTake (commanded (directory (liveWindow 0)) r) r [] ∧ recordKind r = some .addWindow ∧
      operand2 256 r = some 3) ∧
    valueOperands (addRecord 0x1001 0) = some ⟨1, ⟨0x80, ⟨true, true, true⟩, .strict⟩⟩ ∧
    InBounds (localBaseOperand (addRecord 0x1001 0)) ⟨1, ⟨0xFFFFFFFFFF, ⟨true, true, true⟩, .strict⟩⟩ ∧
    ¬ InBounds (localBaseOperand (addRecord 0x1001 0)) ⟨2, ⟨0xFFFFFFFFFF, ⟨true, true, true⟩, .strict⟩⟩ ∧
    (directory (liveWindow 0)).overlaps 3 none 0x1000 1 = true ∧
    (directory (liveWindow 0)).overlaps 3 none 0x1001 1 = false ∧
    (directory (liveWindow 0)).overlaps 3 none 0x0FFF 1 = false ∧
    ((directory (liveWindow 0)).window 0).state = .free ∧
    ((directory (liveWindow 0)).window 0).holders = 0 ∧
    ((closing 0x4).context 3).state = .closing ∧ (served.context 3).state = .free := by decide +kernel

/-- The range that a MODIFY in flight will give window 7 counts for every window but window 7. -/
theorem test_meets_AddWindowMakesALiveRecord_overlap :
    let s := changing 0x4 .nothing
    s.windowList 3 = [7] ∧ (s.window 7).slot = some 2 ∧ (s.slot 2).subject = .modify 7 ∧
    (s.window 7).length = 1 ∧ (s.slot 2).newValues.length = 2 ∧
    s.overlaps 3 none 0x1001 1 = true ∧ s.overlaps 3 none 0x1002 1 = false ∧
    s.overlaps 3 none 0x0FFF 1 = false ∧ s.overlaps 3 (some 8) 0x0FFF 2 = true ∧
    s.overlaps 3 (some 7) 0x1000 2 = false ∧ s.overlaps 3 none 0x1000 0 = false := by decide +kernel

/-- Window 9 enters the list of windows 7 and 8, which is in ascending local base, at a base below, at and
above each of theirs. -/
theorem test_meets_AddWindowMakesALiveRecord_order :
    let s := (directory (liveWindow 0)).setWindow 8 { liveWindow 0 with localBase := 0x1002 }
    ([7, 8] : List WindowId).Pairwise
      (fun v u => (s.window v).localBase.toNat ≤ (s.window u).localBase.toNat) ∧
    9 ∉ ([7, 8] : List WindowId) ∧ s.insertByBase 9 0x0FFF [7, 8] = [9, 7, 8] ∧
    s.insertByBase 9 0x1000 [7, 8] = [7, 9, 8] ∧ s.insertByBase 9 0x1001 [7, 8] = [7, 9, 8] ∧
    s.insertByBase 9 0x1003 [7, 8] = [7, 8, 9] ∧ s.insertByBase 9 0 [] = [9] := by decide +kernel

theorem test_meets_ModifyWindowAtOnce :
    (∀ r ∈ [modifyRecord 1 1, modifyRecord 2 1, modifyRecord 1 0, modifyRecord 0x1000000 1],
      CanTake (commanded (directory (liveWindow 0)) r) r [] ∧ recordKind r = some .modifyWindow ∧
      operand2 4096 r = some 7 ∧ (valueOperands r).isSome = true) ∧
    valueOperands (modifyRecord 0x1000000 1) = some ⟨0x1000000, ⟨0x90, ⟨true, true, true⟩, .cached⟩⟩ ∧
    (valueOperands (modifyRecord 0x1000001 1)).isSome = false ∧
    ¬ InBounds 0xFFFFFFFFF ⟨2, ⟨0x90, ⟨true, true, true⟩, .cached⟩⟩ ∧
    InBounds (liveWindow 0).localBase ⟨2, ⟨0x90, ⟨true, true, true⟩, .cached⟩⟩ ∧
    InBounds (served.window 7).localBase ⟨1, ⟨0x90, ⟨true, true, true⟩, .cached⟩⟩ ∧
    (served.window 7).state = .free ∧ ((directory (liveWindow 0)).window 7).state = .live ∧
    ((directory (liveWindow 0)).context 3).state ≠ .closing ∧ ((closing 0).context 3).state = .closing ∧
    ((changing 0x4 .nothing).window 7).state = .changing ∧
    versionOperand (modifyRecord 1 1) = (liveWindow 0).version ∧
    versionOperand (modifyRecord 1 0) ≠ (liveWindow 0).version ∧
    (directory { liveWindow 0 with poisoned := true } |>.window 7).poisoned = true ∧
    (directory (liveWindow 0)).overlaps 3 (some 7) 0x1000 2 = false ∧
    (((directory (liveWindow 0)).setWindow 8 { liveWindow 0 with localBase := 0x1001 }).setWindowList 3
      [7, 8]).overlaps 3 (some 7) 0x1000 2 = true := by decide +kernel

theorem test_meets_RetireWindowAtOnce :
    (∀ s ∈ [served, directory (liveWindow 0), directory { liveWindow 0 with poisoned := true }, closing 0,
        changing 0x4 .nothing], CanTake (commanded s (record 0x12 7 0)) (record 0x12 7 0) []) ∧
    recordKind (record 0x12 7 0) = some .retireWindow ∧ operand2 4096 (record 0x12 7 0) = some 7 ∧
    operand2 4096 (record 0x12 4095 0) = some 4095 ∧
    (served.window 7).state = .free ∧ ((closing 0).window 7).state ≠ .free ∧
    ((changing 0x4 .nothing).window 7).state = .changing ∧
    ((directory (liveWindow 0)).window 7).state = .live ∧
    ((directory (liveWindow 0)).window 7).holders = 0 := by decide +kernel

/-- Agent 2's record and an empty directory, port 1 UP with `n` messages queued. -/
def fencing (a : Agent) (n : Nat) : State :=
  (withPort (upPort [] (List.replicate n (.fence 9)))).setAgent 2 a

theorem test_meets_FenceAgentByState :
    (∀ a ∈ [Agent.initial, agentOf .fenced (some 1) none 0, agentOf .purging (some 1) (some .fenced) 1,
        agentOf .purging (some 1) (some .active) 1, agentOf .active (some 1) none 1,
        agentOf .active (some 1) none 0], ∀ n ∈ [0, 31, 32],
      CanTake (commanded (fencing a n) (record 0x20 2 0)) (record 0x20 2 0) [] ∧
      Settled (fencing a n) ∧ Unencumbered (fencing a n) 2 ∧ (fencing a n).fenceWait = []) ∧
    recordKind (record 0x20 2 0) = some .fenceAgent ∧ operand2 32 (record 0x20 2 0) = some 2 := by
  decide +kernel

/-- An ACTIVE agent that a change waits for, or that has a request parked, is fenced as well. -/
theorem test_meets_FenceAgentByState_encumbered :
    CanTake (commanded (changing 0x4 .nothing) (record 0x20 2 0)) (record 0x20 2 0) [] ∧
    ((changing 0x4 .nothing).agent 2).state = .active ∧ ¬ Unencumbered (changing 0x4 .nothing) 2 := by
  decide +kernel

theorem test_meets_UnfenceAgentByState :
    (∀ a ∈ [agentOf .active (some 1) none 0, agentOf .fenced (some 1) none 0, agentOf .fenced none none 0],
      CanTake (commanded (fencing a 0) (record 0x21 2 0)) (record 0x21 2 0) []) ∧
    recordKind (record 0x21 2 0) = some .unfenceAgent ∧
    (fencing Agent.initial 31).HasRoom 1 ∧ ¬ (fencing Agent.initial 32).HasRoom 1 ∧
    ¬ (fencing Agent.initial 0).HasRoom 0 := by decide +kernel

theorem test_meets_QueriesReportTheRecords_key :
    (liveWindow 0x4).state ≠ .free ∧ ((changing 0x4 .nothing).window 7).state ≠ .free ∧
    { Window.initial with version := 3 }.state = .free ∧
    reportedKey { Window.initial with version := 3, holders := 1 } =
      { Window.initial with version := 3 } := by decide +kernel

theorem test_meets_QueriesReportTheRecords :
    (∀ r ∈ [record 0x30 7 0, record 0x31 31 0, record 0x32 255 0],
      CanTake (commanded (scrubbing (liveWindow 0x4) [3]) r) r []) ∧
    recordKind (record 0x30 7 0) = some .queryWindow ∧ operand2 4096 (record 0x30 7 0) = some 7 ∧
    recordKind (record 0x31 31 0) = some .queryAgent ∧ operand2 32 (record 0x31 31 0) = some 31 ∧
    recordKind (record 0x32 255 0) = some .queryContext ∧ operand2 256 (record 0x32 255 0) = some 255 ∧
    (∀ l ∈ [[], [3], [3, 9]], Readable (scrubbing (liveWindow 0x4) l) 7 l ∧
      Readable (scrubbing Window.initial l) 7 l) ∧
    ((scrubbing { liveWindow 0x4 with poisoned := true } []).window 7).poisoned = true := by
  decide +kernel

theorem test_meets_PortCommandsByState :
    (∀ r ∈ [record 0x40 1 0, record 0x41 1 0, record 0x42 1 0],
      (∀ x ∈ [Port.initial, reinitRecord .training, upPort [] [], (training true false).port 1],
        CanTake (commanded (withPort x) r) r [] ∧ (withPort x).port 1 = x) ∧ operand2 4 r = some 1) ∧
    recordKind (record 0x40 1 0) = some .portEnable ∧ recordKind (record 0x41 1 0) = some .portDisable ∧
    recordKind (record 0x42 1 0) = some .portReset ∧ operand2 4 (record 0x40 3 0) = some 3 := by
  decide +kernel

/-! ### The register window -/

theorem test_meets_StagingAndPosting :
    { served with staging := [1, 2, 3, 4, 5] }.staging.length < 6 ∧
    6 ≤ { served with staging := [1, 2, 3, 4, 5, 6] }.staging.length ∧
    served.staging = ([1, 2, 3, 4, 5, 6] : List Word).take 0 ∧
    { served with staging := [1, 2, 3, 4, 5, 6] }.staging = ([1, 2, 3, 4, 5, 6] : List Word).take 6 ∧
    { served with cmdQueue := List.replicate 15 (record 0 0 0) }.cmdQueue.length < 16 ∧
    16 ≤ { served with cmdQueue := List.replicate 16 (record 0 0 0) }.cmdQueue.length := by
  decide +kernel

/-- A completion waits, with a number of its words read. -/
def completed (n : Nat) : State :=
  { served with completions := [⟨0x01, .ok, 1, .context 7⟩], readPosition := n }

theorem test_meets_CompletionsAreReadAndPopped :
    (completed 7).completions = ⟨0x01, .ok, 1, .context 7⟩ :: [] ∧ (completed 7).readPosition < 8 ∧
    (completed 8).readPosition = 8 ∧ served.completions = [] ∧ served.resetHeld = false := by
  decide +kernel

theorem test_meets_RegisterWritesAndReads :
    served.resetHeld = false ∧ (Instr.registerWriteIgnored 0x06 1).wf = true ∧
    (∀ n ∈ [0, 7, 8], (completed n).resetHeld = false ∧ (completed n).reservations ≤ 16 ∧
      (completed n).completions.length ≤ 16) ∧
    { served with reservations := 16 }.reservations ≤ 16 ∧
    (completed 7).readPosition < 8 ∧ 8 ≤ (completed 8).readPosition ∧
    (completed 7).completions = ⟨0x01, .ok, 1, .context 7⟩ :: [] ∧ served.completions = [] ∧
    (∀ x ∈ [ChangeSubject.modify 7, .retire 7, .close 3, .leave 3 2],
      { served with recallBank := ⟨true, false, 4, x, 0x4⟩ }.recallBank.subject = x) ∧
    (0x24 : BitVec 8) ∉ ([0x00, 0x01, 0x03, 0x04, 0x05, 0x0A, 0x0C, 0x0E, 0x10, 0x11, 0x18,
      0x19, 0x1C, 0x1D, 0x1E, 0x1F, 0x20, 0x21] : List (BitVec 8)) := by decide

theorem test_meets_AttentionAndBanks :
    StorageBank.initial.valid = false ∧
    (∀ x ∈ [Severity.corrected, .uncorrected],
      (recordStorage StorageBank.initial x 7 .scrub false).valid = true ∧
      (recordStorage StorageBank.initial x 7 .scrub false).severity = x) ∧
    (recordLink LinkBank.initial 1 .check).valid = true := by decide

theorem test_meets_FramesAndRecordsByLayout :
    (1 ≤ 1 ∧ 1 ≤ 32) ∧ (1 ≤ 32 ∧ 32 ≤ 32) ∧ (0x25 < 256 ∧ 31 < 256) ∧
    ([1, 2, 3, 4, 5, 6] : List Word).length ≤ 6 ∧
    Agent.initial.held ≤ 4096 ∧ Context.initial.windowCount ≤ 4096 ∧
    (⟨0x01, .badCommand, 0, .refused⟩ : Completion).result = .refused := by decide

/-! ### Invariants: states in which they hold, and from which a step answers -/

theorem test_meets_StepKeeps (s : State) (h : s.pending = []) : step s = .next s := by
  simp [step, h]

theorem test_meets_StepKeepsReservations :
    (changing 0x4 .nothing).reservations =
      (changing 0x4 .nothing).activeSlots + (changing 0x4 .nothing).fenceWait.length ∧
    (changing 0x4 .nothing).completions.length + (changing 0x4 .nothing).reservations ≤ 16 ∧
    (changing 0x4 .nothing).slotWait = false := by decide +kernel

theorem test_meets_StepKeepsPortsBounded : PortsBounded (owing 32) := by
  unfold PortsBounded PortBounded
  decide +kernel

theorem test_meets_StepKeepsPurgesTracked : PurgesTracked (purging .absent 1 7) := by
  unfold PurgesTracked QuietInWalk OwedKept
  decide +kernel

theorem test_meets_StepKeepsSubsets : SubsetsKept (owing 0) := by
  unfold SubsetsKept
  decide +kernel

theorem test_meets_StepKeepsWaitsBounded : WaitsBounded (waiting 31 true 1 63) := by
  unfold WaitsBounded QuietInWalk
  decide +kernel

theorem test_meets_StepKeepsRegistersInRange : RegistersInRange (completed 8) := by
  unfold RegistersInRange
  decide +kernel

theorem test_meets_StepKeepsHeldCountsExact : HeldCountsExact served := by
  intro a
  have h : (List.finRange 4096).countP (fun w => hasAgent (served.window w).holders a) = 0 :=
    List.countP_eq_zero.mpr fun w _ => by
      rw [show (served.window w).holders = 0 from rfl]
      simp [hasAgent]
  exact h.symm

theorem test_meets_StepKeepsTablesCanonical : TablesCanonical served :=
  ⟨⟨List.Pairwise.nil, fun _ h => absurd h List.not_mem_nil⟩,
   ⟨List.Pairwise.nil, fun _ h => absurd h List.not_mem_nil⟩,
   ⟨List.Pairwise.nil, fun _ h => absurd h List.not_mem_nil⟩,
   ⟨List.Pairwise.nil, fun _ h => absurd h List.not_mem_nil⟩,
   ⟨List.Pairwise.nil, fun _ h => absurd h List.not_mem_nil⟩,
   ⟨List.Pairwise.nil, fun _ h => absurd h List.not_mem_nil⟩,
   ⟨List.Pairwise.nil, fun _ h => absurd h List.not_mem_nil⟩,
   ⟨List.Pairwise.nil, fun _ h => absurd h List.not_mem_nil⟩,
   ⟨List.Pairwise.nil, fun _ h => absurd h List.not_mem_nil⟩,
   ⟨List.Pairwise.nil, fun _ h => absurd h List.not_mem_nil⟩, fun _ => List.Pairwise.nil⟩

end Sys2Proof.Tests
end

section
/-! SUPPORT. One account of what a command can do to the part: `Edit` is one update of one record or
register, `Edits` a run of them, and every shared operation is such a run. An invariant that each kind of
update keeps is then kept by every command. -/

namespace Sys2Proof.Machine

/-! ## Updates of one record -/

/-- The ten tables of the part. -/
structure Tables where
  windows     : Table 4096 Window
  grants      : Table 4096 CodeWord
  windowLists : Table 256 (List WindowId)
  contexts    : Table 256 Context
  agents      : Table 32 Agent
  pool        : Table 64 PoolEntry
  parkOrders  : Table 4096 (List EntryId)
  slots       : Table 8 Slot
  ports       : Table 4 Port
  lanes       : Table 4 Frame

def State.tables (s : State) : Tables :=
  ⟨s.windows, s.grants, s.windowLists, s.contexts, s.agents, s.pool, s.parkOrders, s.slots, s.ports,
    s.lanes⟩

/-- The registers of the management port, the reset and the time of the part, and the queue of commands. -/
structure Registers where
  pending       : List Instr
  resetHeld     : Bool
  init          : Bool
  walkTicks     : Nat
  staging       : List Word
  readPosition  : Nat
  readData      : Word
  cmdOverrun    : Bool
  attnEnable    : BitVec 4
  recallLimit   : BitVec 12
  scrubInterval : BitVec 8
  scrubTimer    : Nat

def State.registers (s : State) : Registers :=
  ⟨s.pending, s.resetHeld, s.init, s.walkTicks, s.staging, s.readPosition, s.readData, s.cmdOverrun,
    s.attnEnable, s.recallLimit, s.scrubInterval, s.scrubTimer⟩

/-- One update of one record, or of fields that are neither tables nor registers. A holder set and a held
count are updated together alone (R7), and a code word keeps its changed bits in rising order (log 9). -/
inductive Edit : State → State → Prop
  | window (s : State) (w : WindowId) (x : Window) (h : x.holders = (s.window w).holders) :
      Edit s (s.setWindow w x)
  | word (s : State) (w : WindowId) (x : CodeWord)
      (h : (s.word w).flipped.Pairwise (· < ·) → x.flipped.Pairwise (· < ·)) : Edit s (s.setWord w x)
  | windowList (s : State) (c : ContextId) (l : List WindowId) : Edit s (s.setWindowList c l)
  | context (s : State) (c : ContextId) (r : Context) : Edit s (s.setContext c r)
  | agent (s : State) (a : AgentId) (r : Agent) (h : r.held = (s.agent a).held) :
      Edit s (s.setAgent a r)
  | entry (s : State) (e : EntryId) (r : PoolEntry) : Edit s (s.setEntry e r)
  | parkOrder (s : State) (w : WindowId) (l : List EntryId) : Edit s (s.setParkOrder w l)
  | slot (s : State) (k : SlotId) (r : Slot) : Edit s (s.setSlot k r)
  | port (s : State) (p : PortId) (r : Port) : Edit s (s.setPort p r)
  | lane (s : State) (p : PortId) (f : Frame) : Edit s (s.setLane p f)
  | addHolder (s : State) (w : WindowId) (a : AgentId) : Edit s (s.addHolder w a)
  | dropHolder (s : State) (w : WindowId) (a : AgentId) : Edit s (s.dropHolder w a)
  | rest (s t : State) (ht : t.tables = s.tables) (hr : t.registers = s.registers) : Edit s t

/-- A run of updates. -/
abbrev Edits : State → State → Prop := Relation.ReflTransGen Edit

theorem Edits.keeps_registers {s t : State} (h : Edits s t) : t.registers = s.registers := by
  induction h with
  | refl => rfl
  | tail _ he ih =>
    rw [← ih]
    cases he with
    | addHolder w a => unfold State.addHolder; split <;> rfl
    | dropHolder w a => unfold State.dropHolder; split <;> rfl
    | rest _ _ hr => exact hr
    | _ => rfl

/-- A fold is a run of updates when each of its steps is, read through a projection `f`. -/
theorem foldl_proj_edits {σ β : Type} (f : σ → State) (op : σ → β → σ)
    (h : ∀ x b, Edits (f x) (f (op x b))) (l : List β) (x : σ) : Edits (f x) (f (l.foldl op x)) := by
  induction l generalizing x with
  | nil => exact .refl
  | cons b l ih => exact (h x b).trans (ih _)

theorem foldl_edits {β : Type} {op : State → β → State} (h : ∀ s b, Edits s (op s b)) (l : List β)
    (s : State) : Edits s (l.foldl op s) := foldl_proj_edits (fun s => s) op h l s

/-- An update of fields that are neither tables nor registers. -/
theorem rest_edits {s t : State} (ht : t.tables = s.tables) (hr : t.registers = s.registers) :
    Edits s t := .single (.rest s t ht hr)

theorem replayList_edits (s : State) (l : List EntryId) : Edits s { s with replayList := l } :=
  rest_edits rfl rfl

theorem serial_edits (s : State) (x : Half) : Edits s { s with serial := x } := rest_edits rfl rfl

theorem purgeSet_edits (s : State) (x : AgentSet) : Edits s { s with purgeSet := x } :=
  rest_edits rfl rfl

theorem fenceWait_edits (s : State) (l : List FenceWait) : Edits s { s with fenceWait := l } :=
  rest_edits rfl rfl

theorem portChange_edits (s : State) : Edits s { s with portChange := true } := rest_edits rfl rfl

/-! ## Placement, holder sets, grant parts, the pool -/

theorem place_edits (s : State) (p : PortId) (m : OutMsg) : Edits s (s.place p m) := by
  unfold State.place
  split
  · exact .single (.port _ _ _)
  · exact .refl

theorem takeInbound_edits (s : State) (p : PortId) : Edits s (s.takeInbound p) :=
  .single (.port _ _ _)

theorem dropHolders_edits (s : State) (w : WindowId) (x : AgentSet) : Edits s (s.dropHolders w x) :=
  foldl_edits (fun _ _ => .single (.dropHolder _ _ _)) _ _

theorem writeGrant_edits (s : State) (w : WindowId) (g : GrantPart) : Edits s (s.writeGrant w g) :=
  .single (.word _ _ _ fun _ => List.Pairwise.nil)

theorem releaseEntry_edits (s : State) (e : EntryId) : Edits s (s.releaseEntry e) := by
  have hset : Edits s (s.setEntry e { s.entry e with state := .free }) := .single (.entry _ _ _)
  unfold State.releaseEntry
  dsimp only
  split
  · exact hset
  · exact hset.tail (.parkOrder _ _ _)
  · exact hset.trans (replayList_edits _ _)

theorem dropEntries_edits (s : State) (pick : PoolEntry → Bool) : Edits s (s.dropEntries pick) := by
  refine foldl_edits (fun s e => ?_) _ _
  split
  · exact releaseEntry_edits s e
  · exact .refl

theorem parkEntry_edits (s : State) (e : EntryId) (r : Request) (p : PortId) (w : WindowId) :
    Edits s (s.parkEntry e r p w) :=
  (Relation.ReflTransGen.single (.entry s e ⟨.parked, r, p, w⟩)).tail (.parkOrder _ _ _)

theorem movePark_edits (s : State) (w : WindowId) : Edits s (s.movePark w) := by
  have hfold : ∀ l : List EntryId,
      Edits s (l.foldl (fun s e => s.setEntry e { s.entry e with state := .replay }) s) :=
    fun l => foldl_edits (fun _ _ => .single (.entry _ _ _)) l s
  exact ((hfold (s.parkOrder w)).tail (.parkOrder _ w [])).trans (replayList_edits _ _)

theorem moveParkOf_edits (s : State) (x : ChangeSubject) : Edits s (s.moveParkOf x) := by
  unfold State.moveParkOf
  split
  · exact movePark_edits s _
  · exact .refl

/-! ## Change slots and completions -/

theorem dropAnswer_edits (s : State) (k : SlotId) (a : AgentId) : Edits s (s.dropAnswer k a) := by
  have hset : Edits s (s.dropPending k a) := .single (.slot _ _ _)
  unfold State.dropAnswer
  split
  · exact hset.tail (.dropHolder _ _ _)
  · exact hset

theorem post_edits (s : State) (c : Completion) : Edits s (s.post c) := rest_edits rfl rfl

theorem postAll_edits (s : State) (cs : List Completion) : Edits s (s.postAll cs) :=
  foldl_edits post_edits cs s

theorem takeCommand_edits (s : State) : Edits s s.takeCommand := rest_edits rfl rfl

/-! ## What a change does to the records -/

/-- The holder set of a window after some of its holders are removed. -/
theorem hasAgent_foldl_dropHolder (w : WindowId) (l : List AgentId) (s : State) (b : AgentId) :
    hasAgent ((l.foldl (fun s a => s.dropHolder w a) s).window w).holders b
      = (hasAgent (s.window w).holders b && decide (b ∉ l)) := by
  induction l generalizing s with
  | nil => simp
  | cons a l ih =>
    rw [List.foldl_cons, ih]
    by_cases ha : hasAgent (s.window w).holders a = true
    · rw [dropHolder_of_holder ha]
      by_cases hb : b = a <;> simp [hasAgent_dropAgent, hb]
    · have ha' : hasAgent (s.window w).holders a = false := by simpa using ha
      rw [dropHolder_of_no_holder ha']
      by_cases hb : b = a <;> simp [hb, ha']

theorem hasAgent_dropHolders (s : State) (w : WindowId) (x : AgentSet) (b : AgentId) :
    hasAgent ((s.dropHolders w x).window w).holders b
      = (hasAgent (s.window w).holders b && !hasAgent x b) := by
  unfold State.dropHolders
  rw [hasAgent_foldl_dropHolder]
  simp [mem_agentsOf]

/-- A window whose every holder is removed has an empty holder set. -/
theorem dropHolders_own_holders (s : State) (w : WindowId) :
    ((s.dropHolders w (s.window w).holders).window w).holders = 0 :=
  agentSet_ext fun b => by rw [hasAgent_dropHolders, Bool.and_not_self, hasAgent_zero]

theorem applyAdd_edits (s : State) (w : WindowId) (c : ContextId) (base : LocalPage) (v : NewValues) :
    Edits s (s.applyAdd w c base v) := by
  have hempty := dropHolders_own_holders s w
  have hdrop := dropHolders_edits s w (s.window w).holders
  unfold State.applyAdd
  dsimp only
  generalize s.dropHolders w (s.window w).holders = t at hdrop hempty ⊢
  exact (((hdrop.tail (.windowList _ _ _)).tail (.context _ _ _)).tail
    (.window _ _ _ hempty.symm)).trans (writeGrant_edits _ _ _)

theorem applyModify_edits (s : State) (w : WindowId) (v : NewValues) : Edits s (s.applyModify w v) := by
  unfold State.applyModify
  exact .head (.window s w _ (by rfl)) (writeGrant_edits _ _ _)

theorem freeRecord_edits (s : State) (w : WindowId) : Edits s (s.freeRecord w) := by
  unfold State.freeRecord
  exact .head (.window s w _ (by rfl)) (writeGrant_edits _ _ _)

theorem applyRetire_edits (s : State) (w : WindowId) : Edits s (s.applyRetire w) :=
  .head (.windowList s (s.window w).context _) (.head (.context _ _ _) (freeRecord_edits _ _))

theorem applyClose_edits (s : State) (c : ContextId) : Edits s (s.applyClose c) := by
  have hfold : ∀ l : List WindowId, Edits s
      (l.foldl (fun s w => (s.dropHolders w (s.window w).holders).freeRecord w) s) :=
    fun l => foldl_edits (fun _ _ => (dropHolders_edits _ _ _).trans (freeRecord_edits _ _)) l s
  exact ((hfold _).tail (.windowList _ c [])).tail (.context _ _ _)

theorem leaveWindow_edits (s : State) (a : AgentId) (w : WindowId) : Edits s (s.leaveWindow a w) := by
  have hdrop : Edits s (s.dropHolder w a) := .single (.dropHolder _ _ _)
  unfold State.leaveWindow
  dsimp only
  split
  · split
    · exact hdrop.tail (.slot _ _ _)
    · exact hdrop
  · exact hdrop

theorem leaveHoldings_edits (s : State) (c : ContextId) (a : AgentId) :
    Edits s (s.leaveHoldings c a) := foldl_edits (fun _ _ => leaveWindow_edits _ _ _) _ _

theorem applyLeave_edits (s : State) (c : ContextId) (a : AgentId) : Edits s (s.applyLeave c a) :=
  (leaveHoldings_edits s c a).tail (.context _ _ _)

theorem changeEffect_edits (s : State) (x : ChangeSubject) (v : NewValues) :
    Edits s (s.changeEffect x v) := by
  cases x with
  | modify w => exact applyModify_edits s w v
  | retire w => exact applyRetire_edits s w
  | close c => exact applyClose_edits s c
  | leave c a => exact applyLeave_edits s c a

theorem spoil_edits (s : State) (w : WindowId) : Edits s (s.spoil w) := by
  unfold State.spoil
  split
  · exact writeGrant_edits s w _
  · exact .single (.window _ _ _ rfl)

theorem storageFault_edits (s : State) (x : Severity) (w : WindowId) (d : Detector) :
    Edits s (s.storageFault x w d) := rest_edits rfl rfl

theorem readGrant_edits (s : State) (d : Detector) (w : WindowId) : Edits s (s.readGrant d w).1 := by
  unfold State.readGrant
  split
  · exact .refl
  · split
    · exact .refl
    · exact (storageFault_edits s _ w d).trans (writeGrant_edits _ _ _)
    · exact (storageFault_edits s _ w d).trans (spoil_edits _ _)

/-! ## The recall engine -/

theorem firstRecall_edits (s : State) (kept : Option AgentId) (k : SlotId) (a : AgentId) :
    Edits s (s.firstRecall kept k a) := by
  unfold State.firstRecall
  split
  · exact place_edits s _ _
  · exact .single (.slot _ _ _)

theorem fillRecords_edits (s : State) (k : SlotId) (x : ChangeSubject) :
    Edits s (s.fillRecords k x) := by
  cases x with
  | modify w => exact .head (.window s w _ (by rfl)) (dropHolders_edits _ _ _)
  | retire w => exact .head (.window s w _ (by rfl)) (dropHolders_edits _ _ _)
  | close c => exact .single (.context _ _ _)
  | leave c a => exact .single (.context _ _ _)

theorem fillSlot_edits (s : State) (kept : Option AgentId) (k : SlotId) (x : ChangeSubject)
    (v : NewValues) (tag : Half) : Edits s (s.fillSlot kept k x v tag) := by
  have hrecords := (serial_edits s s.nextSerial).trans (
    fillRecords_edits { s with serial := s.nextSerial } k x)
  unfold State.fillSlot
  exact (hrecords.tail (.slot _ k _)).trans (foldl_edits (fun _ _ => firstRecall_edits _ _ _ _) _ _)

theorem completeSlot_edits (s : State) (k : SlotId) : Edits s (s.completeSlot k).1 := by
  unfold State.completeSlot
  exact ((changeEffect_edits s (s.slot k).subject (s.slot k).newValues).trans
    (moveParkOf_edits _ (s.slot k).subject)).tail (.slot _ _ _)

theorem leaveFirst_edits (s : State) (k : SlotId) : Edits s (s.leaveFirst k) := by
  unfold State.leaveFirst
  split
  · split
    · exact leaveHoldings_edits s _ _
    all_goals exact .refl
  · exact .refl

theorem completeIfEmptied_edits (x : State × List Completion) (k : SlotId) :
    Edits x.1 (completeIfEmptied x k).1 := by
  unfold completeIfEmptied
  split
  · exact completeSlot_edits x.1 k
  · exact .refl

theorem completeEmptied_edits (s : State) : Edits s s.completeEmptied.1 := by
  have hleave := foldl_edits leaveFirst_edits allSlots s
  unfold State.completeEmptied
  generalize allSlots.foldl State.leaveFirst s = t at hleave ⊢
  exact hleave.trans
    (foldl_proj_edits Prod.fst completeIfEmptied completeIfEmptied_edits allSlots (t, []))

/-! ## Purges and fences -/

theorem sendFence_edits (s : State) (a : AgentId) : Edits s (s.sendFence a) := by
  unfold State.sendFence
  split
  · split
    · exact place_edits s _ _
    · split
      · exact .single (.agent _ _ _ rfl)
      · exact .refl
  · exact .refl

theorem quitSlot_edits (s : State) (a : AgentId) (k : SlotId) : Edits s (s.quitSlot a k) := by
  unfold State.quitSlot
  split
  · exact dropAnswer_edits s k a
  · exact .refl

theorem purgeStart_edits (s : State) (a : AgentId) (x : PurgeTarget) :
    Edits s (s.purgeStart a x) := by
  have hagent : Edits s (s.setAgent a { s.agent a with
      state := .purging, target := some x, welcomeOwed := decide (x = .active) }) :=
    .single (.agent _ _ _ rfl)
  have hfence := fun t : State => show Edits t (if x = .fenced then t.sendFence a else t) by
    split
    · exact sendFence_edits t a
    · exact .refl
  unfold State.purgeStart
  exact (((hagent.trans (hfence _)).trans (dropEntries_edits _ _)).trans
    (foldl_edits (fun _ _ => quitSlot_edits _ _ _) _ _)).trans (purgeSet_edits _ _)

theorem fence_edits (s : State) (a : AgentId) : Edits s (s.fence a) := by
  unfold State.fence
  dsimp only
  split
  · exact purgeStart_edits s a _
  · split
    · exact .refl
    · exact .head (.agent s a _ (by rfl)) (sendFence_edits _ _)
  · exact .single (.agent _ _ _ rfl)
  · exact .refl

theorem depart_edits (s : State) (a : AgentId) : Edits s (s.depart a) := by
  unfold State.depart
  dsimp only
  split
  · exact purgeStart_edits s a _
  · split
    · exact .single (.agent _ _ _ rfl)
    · exact .refl
  · exact .refl
  · exact .refl

theorem losePort_edits (s : State) (p : PortId) (a : AgentId) : Edits s (s.losePort p a) := by
  unfold State.losePort
  split
  · exact (depart_edits s a).tail (.agent _ _ _ rfl)
  · exact .refl

theorem reachTarget_edits (s : State) (kept : Option AgentId) (a : AgentId) :
    Edits s (s.reachTarget kept a) := by
  unfold State.reachTarget
  dsimp only
  split
  · split
    · exact .head (.agent s a _ (by rfl)) (place_edits _ _ _)
    · exact .single (.agent _ _ _ rfl)
  · exact .single (.agent _ _ _ rfl)
  · exact .single (.agent _ _ _ rfl)
  · exact .refl

theorem endPurge_edits (s : State) (kept : Option AgentId) (a : AgentId) :
    Edits s (s.endPurge kept a) := by
  unfold State.endPurge
  split
  · exact (reachTarget_edits s kept a).trans (purgeSet_edits _ _)
  · exact .refl

theorem endPurges_edits (s : State) (kept : Option AgentId) : Edits s (s.endPurges kept) :=
  foldl_edits (fun _ _ => endPurge_edits _ _ _) _ _

/-! ## The end of a claim -/

theorem settle_edits (s : State) (kept : Option AgentId) (late : Bool) :
    Edits s (s.settle kept late) := by
  unfold State.settle
  exact (((completeEmptied_edits s).trans (endPurges_edits _ kept)).trans
    (fenceWait_edits _ _)).trans (postAll_edits _ _)

theorem carryOut_edits (s : State) (kept : Option AgentId) (late : Bool) (r : CmdRecord)
    (j : Judgement) : Edits s (s.carryOut kept late r j) := by
  have htake := takeCommand_edits s
  unfold State.carryOut
  split
  · exact htake.trans (post_edits _ _)
  · exact (htake.trans (changeEffect_edits _ _ _)).trans (post_edits _ _)
  · split
    · exact rest_edits rfl rfl
    · exact (htake.trans (fillSlot_edits _ _ _ _ _ _)).trans (settle_edits _ _ _)

theorem reconsider_edits (s : State) (kept : Option AgentId) : Edits s (s.reconsider kept) := by
  unfold State.reconsider
  split
  · split
    · exact carryOut_edits s kept true _ _
    · exact .refl
  · exact .refl

theorem finish_edits (s : State) (caller : Option AgentId) : Edits s (s.finish caller) := by
  unfold State.finish
  exact (settle_edits s _ false).trans (reconsider_edits _ _)

end Sys2Proof.Machine
end

section
/-! SUPPORT. Every command is a run of updates of single records, together with the control events (a
reset, the walk, a tick, an access to a register) where the command is one. -/

namespace Sys2Proof.Machine

/-! ## Claims of the links -/

theorem enterReinit_edits (s : State) (p : PortId) (d : Destination) :
    Edits s (s.enterReinit p d) := by
  have hdiscard : Edits s (s.discardLink p d) := .head (.port s p _) (portChange_edits _)
  unfold State.enterReinit State.losePorts
  exact ((hdiscard.trans (dropEntries_edits _ _)).trans
    (foldl_edits (fun _ _ => losePort_edits _ _ _) _ _)).trans (finish_edits _ _)

theorem violation_edits (s : State) (p : PortId) (kind : Violation) : Edits s (s.violation p kind) := by
  have hbank : Edits s { s with linkBank := recordLink s.linkBank p kind } := rest_edits rfl rfl
  exact hbank.trans (enterReinit_edits _ p _)

theorem announceFence_edits (s : State) (p : PortId) (a : AgentId) :
    Edits s (s.announceFence p a) := by
  unfold State.announceFence
  dsimp only
  split
  · exact place_edits s p _
  · exact .refl

theorem enterUp_edits (s : State) (p : PortId) : Edits s (s.enterUp p) := by
  unfold State.enterUp
  exact (Relation.ReflTransGen.head (.port s p _) (portChange_edits _)).trans
    (foldl_edits (fun _ _ => announceFence_edits _ _ _) _ _)

theorem enterTraining_edits (s : State) (p : PortId) : Edits s (s.enterTraining p) :=
  .head (.port s p _) (portChange_edits _)

theorem receiveReady_edits (s : State) (p : PortId) (n : Nat) : Edits s (s.receiveReady p n) := by
  unfold State.receiveReady
  dsimp only
  split
  · split
    · exact .head (.port s p _) (enterUp_edits _ _)
    · exact .single (.port _ _ _)
  · exact violation_edits s p _

theorem receiveCredit_edits (s : State) (p : PortId) (n : Nat) : Edits s (s.receiveCredit p n) := by
  unfold State.receiveCredit
  dsimp only
  split
  · exact violation_edits s p _
  · split
    · exact .single (.port _ _ _)
    · exact violation_edits s p _

theorem receiveReinit_edits (s : State) (p : PortId) : Edits s (s.receiveReinit p) := by
  unfold State.receiveReinit
  dsimp only
  split
  · exact enterReinit_edits s p _
  · exact .single (.port _ _ _)

theorem receiveAgent_edits (s : State) (p : PortId) (m : InMsg) : Edits s (s.receiveAgent p m) := by
  unfold State.receiveAgent
  dsimp only
  split
  · split
    · exact violation_edits s p _
    · exact .single (.port _ _ _)
  · exact violation_edits s p _

theorem receive_edits (s : State) (p : PortId) (f : Frame) : Edits s (s.receive p f) := by
  unfold State.receive
  split
  · split
    · exact violation_edits s p _
    · exact receiveReady_edits s p _
    · exact receiveCredit_edits s p _
    · exact receiveReinit_edits s p
    · exact receiveAgent_edits s p _
  · exact .refl

theorem refillOwed_edits (s : State) (p : PortId) (a : AgentId) : Edits s (s.refillOwed p a) := by
  unfold State.refillOwed
  dsimp only
  split
  · split
    · exact .head (.agent s a _ (by rfl)) (place_edits _ _ _)
    · split
      · exact .head (.agent s a _ (by rfl)) (place_edits _ _ _)
      · exact .refl
  · exact .refl

theorem refillRecall_edits (s : State) (p : PortId) (k : SlotId) (a : AgentId) :
    Edits s (s.refillRecall p k a) := by
  unfold State.refillRecall
  split
  · exact (place_edits s p _).tail (.slot _ _ _)
  · exact .refl

theorem refillSlot_edits (s : State) (p : PortId) (k : SlotId) : Edits s (s.refillSlot p k) := by
  unfold State.refillSlot
  split
  · exact foldl_edits (fun _ _ => refillRecall_edits _ _ _ _) _ _
  · exact .refl

/-! ## Claims on agent messages, and the purge walk -/

theorem takeHello_edits (s : State) (p : PortId) (a : AgentId) : Edits s (s.takeHello p a) := by
  have htell : Edits s ((s.setAgent a { s.agent a with port := some p, fenceOwed := false }).place p
      (.welcome a .fenced)) := .head (.agent s a _ (by rfl)) (place_edits _ _ _)
  unfold State.takeHello
  dsimp only
  split
  · exact .head (.agent s a _ (by rfl)) (place_edits _ _ _)
  split
  · exact htell
  split
  · exact place_edits s p _
  split
  · exact (purgeStart_edits s a _).trans (finish_edits _ _)
  split
  · exact htell
  split
  · exact htell
  split
  · exact .single (.agent _ _ _ rfl)
  · exact .refl

theorem takeGoodbye_edits (s : State) (p : PortId) (a : AgentId) : Edits s (s.takeGoodbye p a) := by
  unfold State.takeGoodbye
  split
  · exact (depart_edits s a).trans (finish_edits _ _)
  · exact .refl

theorem takeRelease_edits (s : State) (p : PortId) (a : AgentId) (w : WindowId) (version : Half) :
    Edits s (s.takeRelease p a w version) := by
  have hdrop : Edits s (s.dropHolder w a) := .single (.dropHolder _ _ _)
  unfold State.takeRelease
  dsimp only
  split
  · split
    · exact (hdrop.tail (.slot _ _ _)).trans (finish_edits _ _)
    · exact hdrop.trans (finish_edits _ _)
  · exact .refl

theorem takeAck_edits (s : State) (p : PortId) (a : AgentId) (serial : Half) :
    Edits s (s.takeAck p a serial) := by
  unfold State.takeAck
  split
  · exact (dropAnswer_edits s _ a).trans (finish_edits _ _)
  · exact .refl

/-! ## Lookups -/

theorem grant_edits (s : State) (p : PortId) (r : Request) (w : WindowId) (g : GrantPart) :
    Edits s (s.grant p r w g) := .head (.addHolder s w r.agent) (place_edits _ _ _)

theorem answerLive_edits (s : State) (p : PortId) (r : Request) (w : WindowId) :
    Edits s (s.answerLive p r w) := by
  have hread := readGrant_edits s .lookup w
  unfold State.answerLive
  dsimp only
  split
  · exact hread.trans (place_edits _ _ _)
  · split
    · exact hread.trans (grant_edits _ _ _ _ _)
    · exact hread.trans (place_edits _ _ _)

theorem park_edits (s : State) (p : PortId) (r : Request) (w : WindowId) :
    Edits s (s.park p r w) := by
  unfold State.park
  split
  · exact parkEntry_edits s _ r p w
  · exact place_edits s p _

theorem serve_edits (s : State) (p : PortId) (r : Request) : Edits s (s.serve p r) := by
  have htake : Edits s { s.takeInbound p with lastPort := p } :=
    (takeInbound_edits s p).trans (rest_edits rfl rfl)
  unfold State.serve
  dsimp only
  split
  · exact htake.trans (place_edits _ _ _)
  · exact htake.trans (park_edits _ _ _ _)
  · exact htake.trans (answerLive_edits _ _ _ _)

theorem serveReplay_edits (s : State) (e : EntryId) : Edits s (s.serveReplay e) := by
  have htake := replayList_edits s (s.replayList.erase e)
  unfold State.serveReplay
  dsimp only
  split
  · exact (htake.trans (place_edits _ _ _)).tail (.entry _ _ _)
  · exact htake.trans (parkEntry_edits _ _ _ _ _)
  · exact (htake.trans (answerLive_edits _ _ _ _)).tail (.entry _ _ _)

/-! ## The recall timers and the scrub read -/

theorem takeReminder_edits (s : State) (k : SlotId) : Edits s (s.takeReminder k) := by
  have hremind : ∀ (s : State) (a : AgentId), Edits s (s.remind k a) := fun s a => by
    unfold State.remind
    split
    · exact place_edits s _ _
    · exact .refl
  exact .head (.slot s k _) (foldl_edits hremind _ _)

theorem lapse_edits (s : State) (k : SlotId) : Edits s (s.lapse k) := by
  have hslot : Edits s (s.setSlot k { s.slot k with
      fenced := (s.slot k).fenced ||| (s.slot k).pending, pending := 0, unsent := 0,
      due := .nothing }) := .single (.slot _ _ _)
  have hbank : ∀ (t : State) (b : RecallBank), Edits t { t with recallBank := b } :=
    fun _ _ => rest_edits rfl rfl
  unfold State.lapse
  dsimp only
  split
  · exact (hslot.trans (dropHolders_edits _ _ _)).trans (hbank _ _)
  · exact hslot.trans (hbank _ _)

theorem timeOut_edits (s : State) (k : SlotId) : Edits s (s.timeOut k) := by
  unfold State.timeOut
  exact ((lapse_edits s k).trans (foldl_edits fence_edits _ _)).trans (finish_edits _ _)

theorem takeDue_edits (s : State) (k : SlotId) : Edits s (s.takeDue k) := by
  unfold State.takeDue
  split
  · exact .refl
  · exact takeReminder_edits s k
  · exact timeOut_edits s k

theorem tickSlot_edits (s : State) (k : SlotId) : Edits s (s.tickSlot k) := by
  unfold State.tickSlot
  dsimp only
  split
  · exact .single (.slot _ _ _)
  · exact .refl

/-! ## Claims of the command engine -/

theorem refuse_edits (s : State) (r : CmdRecord) (status : Status) : Edits s (s.refuse r status) :=
  (takeCommand_edits s).trans (post_edits _ _)

theorem openContext_edits (s : State) (r : CmdRecord) : Edits s (s.openContext r) := by
  unfold State.openContext
  split
  · exact refuse_edits s r _
  split
  · exact refuse_edits s r _
  split
  · exact refuse_edits s r _
  · exact (((takeCommand_edits s).tail (.context _ _ _)).tail (.windowList _ _ _)).trans
      (post_edits _ _)

theorem joinContext_edits (s : State) (r : CmdRecord) : Edits s (s.joinContext r) := by
  unfold State.joinContext
  split
  · exact refuse_edits s r _
  split
  · exact refuse_edits s r _
  split
  · exact refuse_edits s r _
  · exact ((takeCommand_edits s).tail (.context _ _ _)).trans (post_edits _ _)

theorem addChecked_edits (s : State) (r : CmdRecord) (c : ContextId) (v : NewValues) :
    Edits s (s.addChecked r c v) := by
  unfold State.addChecked
  dsimp only
  split
  · exact refuse_edits s r _
  split
  · exact refuse_edits s r _
  split
  · exact refuse_edits s r _
  split
  · exact refuse_edits s r _
  · exact ((takeCommand_edits s).trans (applyAdd_edits _ _ _ _ _)).trans (post_edits _ _)

theorem addWindow_edits (s : State) (r : CmdRecord) : Edits s (s.addWindow r) := by
  unfold State.addWindow
  split
  · split
    · exact addChecked_edits s r _ _
    · exact refuse_edits s r _
  · exact refuse_edits s r _

theorem fenceAgent_edits (s : State) (r : CmdRecord) : Edits s (s.fenceAgent r) := by
  have htake := takeCommand_edits s
  unfold State.fenceAgent
  dsimp only
  split
  · exact refuse_edits s r _
  split
  · exact (htake.trans (fence_edits _ _)).trans (post_edits _ _)
  · exact ((htake.trans (fenceWait_edits _ _)).trans (fence_edits _ _)).trans (finish_edits _ _)

theorem unfenceAgent_edits (s : State) (r : CmdRecord) : Edits s (s.unfenceAgent r) := by
  unfold State.unfenceAgent
  dsimp only
  split
  · exact refuse_edits s r _
  · next a _ =>
    have hagent : Edits s (s.takeCommand.setAgent a
        { s.agent a with state := .absent, port := none, fenceOwed := false }) :=
      (takeCommand_edits s).tail (.agent _ _ _ rfl)
    split
    · refine .trans ?_ (post_edits _ _)
      split
      · exact hagent.trans (place_edits _ _ _)
      · exact hagent
    · exact refuse_edits s r _

theorem queryWindow_edits (s : State) (r : CmdRecord) : Edits s (s.queryWindow r) := by
  unfold State.queryWindow
  split
  · exact refuse_edits s r _
  · exact ((takeCommand_edits s).trans (readGrant_edits _ _ _)).trans (post_edits _ _)

theorem queryAgent_edits (s : State) (r : CmdRecord) : Edits s (s.queryAgent r) := by
  unfold State.queryAgent
  split
  · exact refuse_edits s r _
  · exact (takeCommand_edits s).trans (post_edits _ _)

theorem queryContext_edits (s : State) (r : CmdRecord) : Edits s (s.queryContext r) := by
  unfold State.queryContext
  split
  · exact refuse_edits s r _
  · exact (takeCommand_edits s).trans (post_edits _ _)

theorem enablePort_edits (s : State) (r : CmdRecord) : Edits s (s.enablePort r) := by
  unfold State.enablePort
  split
  · exact refuse_edits s r _
  split
  · exact ((takeCommand_edits s).trans (enterTraining_edits _ _)).trans (post_edits _ _)
  · exact refuse_edits s r _

theorem disableLink_edits (s : State) (p : PortId) : Edits s (s.disableLink p) := by
  unfold State.disableLink
  split
  · exact enterReinit_edits s p _
  · exact enterReinit_edits s p _
  · exact .single (.port _ _ _)
  · exact .refl

theorem disablePort_edits (s : State) (r : CmdRecord) : Edits s (s.disablePort r) := by
  unfold State.disablePort
  split
  · exact refuse_edits s r _
  · exact ((takeCommand_edits s).trans (disableLink_edits _ _)).trans (post_edits _ _)

theorem resetPort_edits (s : State) (r : CmdRecord) : Edits s (s.resetPort r) := by
  unfold State.resetPort
  split
  · exact refuse_edits s r _
  split
  · exact ((takeCommand_edits s).trans (enterReinit_edits _ _ _)).trans (post_edits _ _)
  · exact refuse_edits s r _

/-! ## Commands that leave the registers as they are -/

theorem mem_toggleBit {l : List CodeBit} {b x : CodeBit} (h : x ∈ toggleBit l b) : x = b ∨ x ∈ l := by
  induction l with
  | nil => exact Or.inl (List.mem_singleton.mp h)
  | cons c l ih =>
    unfold toggleBit at h
    split at h
    · exact List.mem_cons.mp h
    · split at h
      · exact Or.inr (List.mem_cons_of_mem _ h)
      · rcases List.mem_cons.mp h with rfl | h
        · exact Or.inr List.mem_cons_self
        · exact (ih h).imp_right (List.mem_cons_of_mem _)

/-- A changed bit keeps the list of changed bits in rising order. -/
theorem toggleBit_rising {l : List CodeBit} {b : CodeBit} (h : l.Pairwise (· < ·)) :
    (toggleBit l b).Pairwise (· < ·) := by
  induction l with
  | nil => simp [toggleBit]
  | cons c l ih =>
    obtain ⟨hc, hl⟩ := List.pairwise_cons.mp h
    unfold toggleBit
    split
    · next hlt =>
      refine List.pairwise_cons.mpr ⟨fun x hx => ?_, h⟩
      rcases List.mem_cons.mp hx with rfl | hx
      · exact hlt
      · exact lt_trans hlt (hc x hx)
    · split
      · exact hl
      · next hlt hne =>
        refine List.pairwise_cons.mpr ⟨fun x hx => ?_, ih hl⟩
        rcases mem_toggleBit hx with rfl | hx
        · exact lt_of_le_of_ne (not_lt.mp hlt) (Ne.symm hne)
        · exact hc x hx

theorem whenReleased_runs {R : State → State → Prop} {s : State} {f : State → State}
    (h : Relation.ReflTransGen R s (f s)) : Relation.ReflTransGen R s (s.whenReleased f) := by
  unfold State.whenReleased
  split
  · exact .refl
  · exact h

theorem whenServing_runs {R : State → State → Prop} {s : State} {f : State → State}
    (h : Relation.ReflTransGen R s (f s)) : Relation.ReflTransGen R s (s.whenServing f) := by
  unfold State.whenServing
  split
  · exact .refl
  · exact h

theorem takeHead_edits (s : State) (kind : Option CommandKind) {f : CmdRecord → State → State}
    (h : ∀ r, Edits s (f r s)) : Edits s (s.takeHead kind f) := by
  refine whenServing_runs ?_
  split
  · exact h _
  · exact .refl

/-- A command's outcome is a next state that `R` relates to the state before. -/
def AnswersBy (R : State → State → Prop) (s : State) (o : Host.Outcome State Fault Refusal) : Prop :=
  ∃ t, o = .next t ∧ R s t

theorem execStoredError_edits (w : WindowId) (bit : CodeBit) (s : State) :
    AnswersBy Edits s (execStoredError w bit s) :=
  ⟨_, rfl, .single (.word _ _ _ toggleBit_rising)⟩

theorem execHello_edits (p : PortId) (s : State) : AnswersBy Edits s (execHello p s) := by
  refine ⟨_, rfl, whenServing_runs ?_⟩
  split
  · split
    · exact (takeInbound_edits s p).trans (takeHello_edits _ _ _)
    · exact .refl
  · exact .refl

theorem execGoodbye_edits (p : PortId) (s : State) : AnswersBy Edits s (execGoodbye p s) := by
  refine ⟨_, rfl, whenServing_runs ?_⟩
  split
  · exact (takeInbound_edits s p).trans (takeGoodbye_edits _ _ _)
  · exact .refl

theorem execRelease_edits (p : PortId) (s : State) : AnswersBy Edits s (execRelease p s) := by
  refine ⟨_, rfl, whenServing_runs ?_⟩
  split
  · exact (takeInbound_edits s p).trans (takeRelease_edits _ _ _ _ _)
  · exact .refl

theorem execRecallAck_edits (p : PortId) (s : State) : AnswersBy Edits s (execRecallAck p s) := by
  refine ⟨_, rfl, whenServing_runs ?_⟩
  split
  · exact (takeInbound_edits s p).trans (takeAck_edits _ _ _ _)
  · exact .refl

theorem execLookup_edits (s : State) : AnswersBy Edits s (execLookup s) := by
  refine ⟨_, rfl, whenServing_runs ?_⟩
  split
  · split
    · exact serve_edits s _ _
    · exact .refl
  · exact .refl

theorem execReplay_edits (s : State) : AnswersBy Edits s (execReplay s) := by
  refine ⟨_, rfl, whenServing_runs ?_⟩
  split
  · exact serveReplay_edits s _
  · exact .refl

theorem execReadyDeparture_edits (p : PortId) (s : State) :
    AnswersBy Edits s (execReadyDeparture p s) := by
  refine ⟨_, rfl, whenServing_runs ?_⟩
  dsimp only
  split
  · have hlane : Edits s (s.setLane p readyFrame) := .single (.lane _ _ _)
    split
    · exact hlane.trans (enterUp_edits _ _)
    · exact hlane.tail (.port _ _ _)
  · exact .refl

theorem execReinitDeparture_edits (p : PortId) (s : State) :
    AnswersBy Edits s (execReinitDeparture p s) := by
  refine ⟨_, rfl, whenReleased_runs ?_⟩
  dsimp only
  split
  · have hlane : Edits s (s.setLane p reinitFrame) := .single (.lane _ _ _)
    split
    · exact hlane.trans (enterTraining_edits _ _)
    · exact (hlane.tail (.port _ p _)).trans (portChange_edits _)
  · exact .refl

theorem execCreditDeparture_edits (p : PortId) (s : State) :
    AnswersBy Edits s (execCreditDeparture p s) := by
  refine ⟨_, rfl, whenReleased_runs ?_⟩
  dsimp only
  split
  · exact .head (.lane s p _) (.single (.port _ _ _))
  · exact .refl

theorem execOutboundDeparture_edits (p : PortId) (s : State) :
    AnswersBy Edits s (execOutboundDeparture p s) := by
  refine ⟨_, rfl, whenReleased_runs ?_⟩
  dsimp only
  split
  · exact .refl
  · split
    · exact .head (.lane s p _) (.single (.port _ _ _))
    · exact .refl

theorem execRefill_edits (p : PortId) (s : State) : AnswersBy Edits s (execRefill p s) :=
  ⟨_, rfl, whenServing_runs ((foldl_edits (fun _ _ => refillOwed_edits _ _ _) allAgents s).trans
    (foldl_edits (fun _ _ => refillSlot_edits _ _ _) _ _))⟩

theorem execRecallReminder_edits (k : SlotId) (s : State) :
    AnswersBy Edits s (execRecallReminder k s) := by
  refine ⟨_, rfl, whenServing_runs ?_⟩
  split
  · exact takeReminder_edits s k
  · exact .refl

theorem execRecallTimeout_edits (k : SlotId) (s : State) :
    AnswersBy Edits s (execRecallTimeout k s) := by
  refine ⟨_, rfl, whenServing_runs ?_⟩
  split
  · exact timeOut_edits s k
  · exact .refl

theorem execPurgeVisit_edits (s : State) : AnswersBy Edits s (execPurgeVisit s) := by
  have hmove : ∀ t : State, Edits t { t with walkPosition := s.walkPosition + 1 } :=
    fun _ => rest_edits rfl rfl
  refine ⟨_, rfl, whenServing_runs ?_⟩
  dsimp only
  split
  · exact .refl
  · refine .trans ?_ (finish_edits _ _)
    split
    · exact hmove s
    · exact (dropHolders_edits s _ _).trans (hmove _)

/-- A command that does not act on the registers answers a run of updates of single records. -/
theorem exec_edits (c : Instr) (s : State) (h : actsOnRegisters c = false) :
    AnswersBy Edits s (exec c s) := by
  cases c with
  | storedError w bit => exact execStoredError_edits w bit s
  | readyReceived p f => exact ⟨_, rfl, whenReleased_runs (receive_edits s p f)⟩
  | creditReceived p f => exact ⟨_, rfl, whenReleased_runs (receive_edits s p f)⟩
  | reinitReceived p f => exact ⟨_, rfl, whenReleased_runs (receive_edits s p f)⟩
  | agentMessageArrival p f => exact ⟨_, rfl, whenReleased_runs (receive_edits s p f)⟩
  | hello p => exact execHello_edits p s
  | goodbye p => exact execGoodbye_edits p s
  | release p => exact execRelease_edits p s
  | recallAck p => exact execRecallAck_edits p s
  | lookup => exact execLookup_edits s
  | replay => exact execReplay_edits s
  | readyDeparture p => exact execReadyDeparture_edits p s
  | reinitDeparture p => exact execReinitDeparture_edits p s
  | creditDeparture p => exact execCreditDeparture_edits p s
  | outboundDeparture p => exact execOutboundDeparture_edits p s
  | refill p => exact execRefill_edits p s
  | recallReminder k => exact execRecallReminder_edits k s
  | recallTimeout k => exact execRecallTimeout_edits k s
  | purgeVisit => exact execPurgeVisit_edits s
  | badCommand => exact ⟨_, rfl, takeHead_edits s _ fun r => refuse_edits s r _⟩
  | openContext => exact ⟨_, rfl, takeHead_edits s _ fun r => openContext_edits s r⟩
  | closeContext => exact ⟨_, rfl, takeHead_edits s _ fun r => carryOut_edits s _ _ r _⟩
  | join => exact ⟨_, rfl, takeHead_edits s _ fun r => joinContext_edits s r⟩
  | leave => exact ⟨_, rfl, takeHead_edits s _ fun r => carryOut_edits s _ _ r _⟩
  | addWindow => exact ⟨_, rfl, takeHead_edits s _ fun r => addWindow_edits s r⟩
  | modifyWindow => exact ⟨_, rfl, takeHead_edits s _ fun r => carryOut_edits s _ _ r _⟩
  | retireWindow => exact ⟨_, rfl, takeHead_edits s _ fun r => carryOut_edits s _ _ r _⟩
  | fenceAgent => exact ⟨_, rfl, takeHead_edits s _ fun r => fenceAgent_edits s r⟩
  | unfenceAgent => exact ⟨_, rfl, takeHead_edits s _ fun r => unfenceAgent_edits s r⟩
  | queryWindow => exact ⟨_, rfl, takeHead_edits s _ fun r => queryWindow_edits s r⟩
  | queryAgent => exact ⟨_, rfl, takeHead_edits s _ fun r => queryAgent_edits s r⟩
  | queryContext => exact ⟨_, rfl, takeHead_edits s _ fun r => queryContext_edits s r⟩
  | portEnable => exact ⟨_, rfl, takeHead_edits s _ fun r => enablePort_edits s r⟩
  | portDisable => exact ⟨_, rfl, takeHead_edits s _ fun r => disablePort_edits s r⟩
  | portReset => exact ⟨_, rfl, takeHead_edits s _ fun r => resetPort_edits s r⟩
  | _ => cases h

/-! ## Control events -/

/-- What a command does: one update of a record, or an event that leaves the tables as they are, gives
them the values of the INIT walk or of the engines' reset, or puts the part in its reset state (R23, R97,
R137). -/
inductive Event : State → State → Prop
  | edit {s t : State} (h : Edit s t) : Event s t
  | control (s t : State) (ht : t.tables = s.tables) (hp : t.pending = s.pending) : Event s t
  | clearTables (s : State) : Event s s.initTables
  | clearEngines (s : State) : Event s s.clearEngines
  | release (s : State) : Event s { State.reset with pending := s.pending }

abbrev Events : State → State → Prop := Relation.ReflTransGen Event

theorem Edits.events {s t : State} (h : Edits s t) : Events s t :=
  Relation.ReflTransGen.mono (fun _ _ => Event.edit) _ _ h

theorem control_events {s t : State} (ht : t.tables = s.tables) (hp : t.pending = s.pending) :
    Events s t := .single (.control s t ht hp)

/-- Every event keeps the queue of commands. -/
theorem Events.keeps_pending {s t : State} (h : Events s t) : t.pending = s.pending := by
  induction h with
  | refl => rfl
  | tail _ he ih =>
    rw [← ih]
    cases he with
    | edit h => exact congrArg Registers.pending (Edits.keeps_registers (.single h))
    | control _ _ hp => exact hp
    | _ => rfl

theorem endWalk_events (s : State) : Events s s.endWalk :=
  .head (.clearTables s) (control_events rfl rfl)

theorem softReset_events (s : State) : Events s s.softReset := by
  have hports : ∀ t : State, Edits t (allPorts.foldl State.softResetPort t) := foldl_edits (fun t p => by
    unfold State.softResetPort
    split
    · exact .head (.port t p _) (portChange_edits _)
    · exact .refl) allPorts
  have hbegin : ∀ t : State, Events t t.beginWalk :=
    fun t => .head (.clearTables t) (control_events rfl rfl)
  have hclear : Events s s.clearCommands.clearEngines.initTables :=
    .head (.control s s.clearCommands rfl rfl) (.head (.clearEngines _) (.single (.clearTables _)))
  have hcauses : Events s { s.clearCommands.clearEngines.initTables with
      cmdOverrun := false, portChange := false } := hclear.trans (control_events rfl rfl)
  exact (hcauses.trans (hports _).events).trans (hbegin _)

theorem scrub_events (s : State) : Events s s.scrub :=
  have hposition : ∀ t : State, Events t
      { t with scrubPosition := s.scrubPosition + 1, scrubTimer := 0 } := fun _ => control_events rfl rfl
  (readGrant_edits s .scrub s.scrubPosition).events.trans (hposition _)

theorem execTimebaseTick_events (s : State) : AnswersBy Events s (execTimebaseTick s) := by
  have hcatch : Events s s.catchUp := by
    unfold State.catchUp
    split
    · split
      · exact endWalk_events s
      · exact .refl
    · exact (foldl_edits takeDue_edits allSlots s).events
  have hslots := fun t : State => (foldl_edits tickSlot_edits allSlots t).events
  have hscrub : ∀ t : State, Events t t.tickScrubber := fun t => by
    unfold State.tickScrubber
    split
    · exact control_events rfl rfl
    split
    · exact control_events rfl rfl
    split
    · exact scrub_events t
    · exact control_events rfl rfl
  have hwalk : ∀ t : State, Events t t.tickWalk := fun t => by
    unfold State.tickWalk
    split
    · exact control_events rfl rfl
    · exact .refl
  exact ⟨_, rfl, whenReleased_runs (((hcatch.trans (hslots _)).trans (hscrub _)).trans (hwalk _))⟩

theorem execScrubRead_events (s : State) : AnswersBy Events s (execScrubRead s) := by
  have hahead : ∀ t : State, Events t { t with scrubAhead := true } := fun _ => control_events rfl rfl
  refine ⟨_, rfl, whenServing_runs ?_⟩
  split
  · exact (scrub_events s).trans (hahead _)
  · exact .refl

/-! ## Accesses to the registers -/

theorem postCommand_events (s : State) : Events s s.postCommand := by
  unfold State.postCommand
  split <;> exact control_events rfl rfl

theorem stage_events (s : State) (value : Word) : Events s (s.stage value) := by
  unfold State.stage
  split
  · exact control_events rfl rfl
  · exact .refl

theorem readCompletion_events (s : State) : Events s s.readCompletion := by
  unfold State.readCompletion
  split <;> exact control_events rfl rfl

theorem popCompletion_events (s : State) : Events s s.popCompletion := by
  unfold State.popCompletion
  split
  · exact .refl
  · exact control_events rfl rfl

theorem writeRegister_events (s : State) (offset : BitVec 8) (value : Word) :
    Events s (s.writeRegister offset value) := by
  unfold State.writeRegister
  split
  · split
    · exact softReset_events s
    · exact .refl
  · exact control_events rfl rfl
  · exact control_events rfl rfl
  · exact stage_events s value
  · exact postCommand_events s
  · exact popCompletion_events s
  · exact control_events rfl rfl
  · exact control_events rfl rfl
  · exact control_events rfl rfl
  · exact .refl

/-- Every command answers a next state, by a run of updates and control events. -/
theorem exec_events (c : Instr) (s : State) : AnswersBy Events s (exec c s) := by
  by_cases h : actsOnRegisters c = false
  · obtain ⟨t, ht, he⟩ := exec_edits c s h
    exact ⟨t, ht, he.events⟩
  cases c with
  | resetNAssert => exact ⟨_, rfl, control_events rfl rfl⟩
  | resetNRelease =>
    refine ⟨_, rfl, ?_⟩
    split
    · exact .single (.release s)
    · exact .refl
  | initWalkEnd =>
    refine ⟨_, rfl, whenReleased_runs ?_⟩
    split
    · exact endWalk_events s
    · exact .refl
  | softReset value =>
    refine ⟨_, rfl, whenReleased_runs ?_⟩
    split
    · exact softReset_events s
    · exact .refl
  | timebaseTick => exact execTimebaseTick_events s
  | scrubRead => exact execScrubRead_events s
  | cmdWordWrite value => exact ⟨_, rfl, whenReleased_runs (stage_events s value)⟩
  | cmdPost value => exact ⟨_, rfl, whenReleased_runs (postCommand_events s)⟩
  | cplWordRead =>
    refine ⟨_, rfl, ?_⟩
    split
    · exact control_events rfl rfl
    · exact readCompletion_events s
  | cplPop value => exact ⟨_, rfl, whenReleased_runs (popCompletion_events s)⟩
  | attnCauseWrite value => exact ⟨_, rfl, whenReleased_runs (control_events rfl rfl)⟩
  | attnEnableWrite value => exact ⟨_, rfl, whenReleased_runs (control_events rfl rfl)⟩
  | recallLimitWrite value => exact ⟨_, rfl, whenReleased_runs (control_events rfl rfl)⟩
  | scrubIntervalWrite value => exact ⟨_, rfl, whenReleased_runs (control_events rfl rfl)⟩
  | faultClear value => exact ⟨_, rfl, whenReleased_runs (control_events rfl rfl)⟩
  | registerWriteIgnored offset value =>
    exact ⟨_, rfl, whenReleased_runs (writeRegister_events s offset value)⟩
  | _ => exact absurd rfl h

/-! ## Invariants -/

/-- An invariant that every event keeps, and that does not read the queue of commands, is kept by every
step. -/
theorem step_keeps {P : State → Prop} (hpending : ∀ s l, P s → P { s with pending := l })
    (hevent : ∀ s t, Event s t → P s → P t) {s t : State} (h : P s) (hstep : step s = .next t) :
    P t := by
  unfold step at hstep
  split at hstep
  · cases hstep; exact h
  · next c rest _ =>
    obtain ⟨u, hu, hevents⟩ := exec_events c { s with pending := rest }
    rw [hu] at hstep
    cases hstep
    have hrest := hpending s rest h
    clear hu h
    induction hevents with
    | refl => exact hrest
    | tail _ he ih => exact hevent _ _ he ih

end Sys2Proof.Machine
end

section
/-! SUPPORT. The steps, the resets and the walk's end (O1, O2, O3, O5), and two invariants of every step:
tables in their canonical form (O60) and exact held counts (O52). -/

namespace Sys2Proof.Machine

/-! ## Steps and registers -/

/-- Settles O1: both clauses are the branches of `step`. -/
theorem stepRunsTheFrontCommand : Obligations.StepRunsTheFrontCommand :=
  ⟨fun _ _ _ => rfl, fun s h => by simp [step, h]⟩

theorem registersKept_of_eq {s t : State} (h : t.registers = s.registers) : RegistersKept s t :=
  ⟨congrArg Registers.resetHeld h, congrArg Registers.init h, congrArg Registers.walkTicks h,
    congrArg Registers.staging h, congrArg Registers.readPosition h, congrArg Registers.readData h,
    congrArg Registers.cmdOverrun h, congrArg Registers.attnEnable h, congrArg Registers.recallLimit h,
    congrArg Registers.scrubInterval h, congrArg Registers.scrubTimer h⟩

/-- Settles O2: a command is a run of events, which keep the queue; one that does not act on the registers
is a run of updates of single records, which keep the registers too. -/
theorem commandsKeepQueueAndRegisters : Obligations.CommandsKeepQueueAndRegisters := by
  intro c s
  obtain ⟨t, ht, hevents⟩ := exec_events c s
  refine ⟨t, ht, hevents.keeps_pending, fun hc => ?_⟩
  obtain ⟨u, hu, hedits⟩ := exec_edits c s hc
  have htu : t = u := by rw [ht] at hu; cases hu; rfl
  exact registersKept_of_eq (htu ▸ hedits.keeps_registers)

/-! ## Resets and the INIT walk -/

/-- Settles O3: the tables are empty, and each register is a closed value. -/
theorem deviceResetValues : Obligations.DeviceResetValues := by
  refine ⟨fun _ => rfl, fun _ => rfl, fun _ => ⟨rfl, rfl⟩, fun _ => rfl, fun _ => rfl, fun _ => rfl, rfl,
    fun _ => ⟨rfl, rfl⟩, rfl, rfl, rfl, rfl, fun _ => rfl, rfl, rfl, rfl, rfl, rfl, rfl, rfl, ?_⟩
  decide

/-- A tick counts at no FREE slot. -/
theorem tickSlots_of_free {s : State} (h : ∀ k, (s.slot k).state = .free) :
    allSlots.foldl State.tickSlot s = s :=
  foldl_fixed _ _ _ fun k _ => by simp [State.tickSlot, h k]

theorem tickScrubber_init (s : State) : s.tickScrubber.init = s.init := by
  unfold State.tickScrubber
  split
  · rfl
  split
  · rfl
  split
  · rw [scrub_only_storage]
  · rfl

/-- A tick with every slot FREE, outside device reset. -/
theorem execTimebaseTick_of_free {s : State} (hr : s.resetHeld = false)
    (h : ∀ k, (s.catchUp.slot k).state = .free) :
    exec .timebaseTick s = .next s.catchUp.tickScrubber.tickWalk := by
  show Host.Outcome.next (s.whenReleased _) = _
  rw [whenReleased_of_released hr, tickSlots_of_free h]

/-- Settles O5: below the bound the tick finds nothing outstanding; from the bound on it ends the walk
first, and the scrubber does not begin it again. -/
theorem walkEndsWithInitialTables : Obligations.WalkEndsWithInitialTables := by
  refine ⟨fun s hr hi => ?_, fun s hr hi hfree => ⟨fun hlt => ?_, fun hle => ?_⟩⟩
  · show Host.Outcome.next (s.whenReleased _) = _
    rw [whenReleased_of_released hr, if_pos hi]
    rfl
  · have hcatch : s.catchUp = s := by
      unfold State.catchUp
      rw [if_pos hi, if_neg (show ¬ Config.walkBound ≤ s.walkTicks from Nat.not_le.mpr hlt)]
    rw [execTimebaseTick_of_free hr (by rwa [hcatch]), hcatch, tickScrubber_at_rest (Or.inl hi)]
    simp [State.tickWalk, hi]
  · have hcatch : s.catchUp = s.endWalk := by
      unfold State.catchUp
      rw [if_pos hi, if_pos (show Config.walkBound ≤ s.walkTicks from hle)]
    have hinit : s.catchUp.tickScrubber.init = false := by rw [tickScrubber_init, hcatch]; rfl
    refine ⟨_, execTimebaseTick_of_free hr (by rw [hcatch]; exact hfree), ?_⟩
    simp [State.tickWalk, hinit]

/-! ## Canonical tables -/

theorem tableWf_nil {n : Nat} {α : Type} (d : α) : TableWf d ([] : Table n α) :=
  ⟨List.Pairwise.nil, fun _ h => absurd h List.not_mem_nil⟩

theorem setWindow_canonical {s : State} (w : WindowId) (x : Window) (h : TablesCanonical s) :
    TablesCanonical (s.setWindow w x) := ⟨tableSet_wf w x h.1, h.2⟩

theorem setAgent_canonical {s : State} (a : AgentId) (x : Agent) (h : TablesCanonical s) :
    TablesCanonical (s.setAgent a x) := by
  obtain ⟨hw, hg, hl, hc, ha, hrest⟩ := h
  exact ⟨hw, hg, hl, hc, tableSet_wf a x ha, hrest⟩

theorem setWord_canonical {s : State} (w : WindowId) (x : CodeWord)
    (hx : (s.word w).flipped.Pairwise (· < ·) → x.flipped.Pairwise (· < ·)) (h : TablesCanonical s) :
    TablesCanonical (s.setWord w x) := by
  obtain ⟨hw, hg, hl, hc, ha, he, ho, hk, hp, hn, hf⟩ := h
  refine ⟨hw, tableSet_wf w x hg, hl, hc, ha, he, ho, hk, hp, hn, fun v => ?_⟩
  rw [State.setWord_word]
  split
  · exact hx (hf w)
  · exact hf v

/-- The canonical form is a property of the tables alone. -/
theorem tablesCanonical_of_tables {s t : State} (ht : t.tables = s.tables) (h : TablesCanonical s) :
    TablesCanonical t := by
  cases s
  cases t
  cases ht
  exact h

theorem edit_canonical {s t : State} (he : Edit s t) (h : TablesCanonical s) : TablesCanonical t := by
  cases he with
  | window w x _ => exact setWindow_canonical w x h
  | agent a r _ => exact setAgent_canonical a r h
  | word w x hx => exact setWord_canonical w x hx h
  | addHolder w a =>
    unfold State.addHolder
    split
    · exact h
    · exact setAgent_canonical _ _ (setWindow_canonical _ _ h)
  | dropHolder w a =>
    unfold State.dropHolder
    split
    · exact setAgent_canonical _ _ (setWindow_canonical _ _ h)
    · exact h
  | rest _ ht _ => exact tablesCanonical_of_tables ht h
  | windowList c l =>
    obtain ⟨hw, hg, hl, hrest⟩ := h
    exact ⟨hw, hg, tableSet_wf c l hl, hrest⟩
  | context c r =>
    obtain ⟨hw, hg, hl, hc, hrest⟩ := h
    exact ⟨hw, hg, hl, tableSet_wf c r hc, hrest⟩
  | entry e r =>
    obtain ⟨hw, hg, hl, hc, ha, he, hrest⟩ := h
    exact ⟨hw, hg, hl, hc, ha, tableSet_wf e r he, hrest⟩
  | parkOrder w l =>
    obtain ⟨hw, hg, hl, hc, ha, he, ho, hrest⟩ := h
    exact ⟨hw, hg, hl, hc, ha, he, tableSet_wf w l ho, hrest⟩
  | slot k r =>
    obtain ⟨hw, hg, hl, hc, ha, he, ho, hk, hrest⟩ := h
    exact ⟨hw, hg, hl, hc, ha, he, ho, tableSet_wf k r hk, hrest⟩
  | port p r =>
    obtain ⟨hw, hg, hl, hc, ha, he, ho, hk, hp, hrest⟩ := h
    exact ⟨hw, hg, hl, hc, ha, he, ho, hk, tableSet_wf p r hp, hrest⟩
  | lane p f =>
    obtain ⟨hw, hg, hl, hc, ha, he, ho, hk, hp, hn, hf⟩ := h
    exact ⟨hw, hg, hl, hc, ha, he, ho, hk, hp, tableSet_wf p f hn, hf⟩

theorem initTables_canonical {s : State} (h : TablesCanonical s) : TablesCanonical s.initTables := by
  obtain ⟨_, _, _, _, _, he, ho, hk, hp, hn, _⟩ := h
  exact ⟨tableWf_nil _, tableWf_nil _, tableWf_nil _, tableWf_nil _, tableWf_nil _, he, ho, hk, hp, hn,
    fun _ => List.Pairwise.nil⟩

theorem clearEngines_canonical {s : State} (h : TablesCanonical s) : TablesCanonical s.clearEngines := by
  obtain ⟨hw, hg, hl, hc, ha, _, _, _, hp, hn, hf⟩ := h
  exact ⟨hw, hg, hl, hc, ha, tableWf_nil _, tableWf_nil _, tableWf_nil _, hp, hn, hf⟩

theorem reset_canonical (l : List Instr) : TablesCanonical { State.reset with pending := l } :=
  ⟨tableWf_nil _, tableWf_nil _, tableWf_nil _, tableWf_nil _, tableWf_nil _, tableWf_nil _,
    tableWf_nil _, tableWf_nil _, tableWf_nil _, tableWf_nil _, fun _ => List.Pairwise.nil⟩

/-- Settles O60: every event keeps the canonical form, and a step is a run of events. -/
theorem stepKeepsTablesCanonical : Obligations.StepKeepsTablesCanonical := by
  intro s t h hstep
  refine step_keeps (P := TablesCanonical) (fun _ _ h => h) (fun s t he h => ?_) h hstep
  cases he with
  | edit he => exact edit_canonical he h
  | control _ ht _ => exact tablesCanonical_of_tables ht h
  | clearTables => exact initTables_canonical h
  | clearEngines => exact clearEngines_canonical h
  | release => exact reset_canonical s.pending

/-! ## Held counts -/

/-- Two predicates on indices that differ at `i` alone have counts that differ by one. -/
theorem countP_finRange_of_differ {n : Nat} {p q : Fin n → Bool} (i : Fin n) (hp : p i = true)
    (hq : q i = false) (h : ∀ j, j ≠ i → p j = q j) :
    (List.finRange n).countP p = (List.finRange n).countP q + 1 := by
  have hperm := List.perm_cons_erase (List.mem_finRange i)
  have hrest : ((List.finRange n).erase i).countP p = ((List.finRange n).erase i).countP q :=
    List.countP_congr fun j hj => by
      rw [h j (((List.nodup_finRange n).mem_erase_iff.mp hj).1)]
  rw [hperm.countP_eq p, hperm.countP_eq q, List.countP_cons, List.countP_cons, hp, hq, hrest]
  simp

/-- The held counts stay exact where no holder set and no held count changes. -/
theorem heldCountsExact_congr {s t : State} (hw : ∀ w, (t.window w).holders = (s.window w).holders)
    (ha : ∀ a, (t.agent a).held = (s.agent a).held) (h : HeldCountsExact s) : HeldCountsExact t := by
  intro a
  have hcount : t.holdings a = s.holdings a := by simp only [State.holdings, hw]
  rw [ha, hcount, h a]

theorem heldCountsExact_of_tables {s t : State} (ht : t.tables = s.tables) (h : HeldCountsExact s) :
    HeldCountsExact t := by
  cases s
  cases t
  cases ht
  exact h

theorem holdings_of_same {s t : State} {a : AgentId}
    (h : ∀ v, hasAgent (t.window v).holders a = hasAgent (s.window v).holders a) :
    t.holdings a = s.holdings a := by simp only [State.holdings, h]

/-- Where `a` holds one window more in `t` than in `s`, its holdings are one more. -/
theorem holdings_of_one_more {s t : State} {w : WindowId} {a : AgentId}
    (ht : hasAgent (t.window w).holders a = true) (hs : hasAgent (s.window w).holders a = false)
    (h : ∀ v, v ≠ w → hasAgent (t.window v).holders a = hasAgent (s.window v).holders a) :
    t.holdings a = s.holdings a + 1 := countP_finRange_of_differ w ht hs h

theorem addHolder_heldCountsExact {s : State} (w : WindowId) (a : AgentId) (h : HeldCountsExact s) :
    HeldCountsExact (s.addHolder w a) := by
  by_cases hheld : hasAgent (s.window w).holders a = true
  · rwa [addHolder_of_holder hheld]
  have hnot : hasAgent (s.window w).holders a = false := by simpa using hheld
  rw [addHolder_of_no_holder hnot]
  intro b
  by_cases hb : b = a
  · subst hb
    rw [holdings_of_one_more (s := s) (w := w) (by simp [hasAgent_addAgent]) hnot
      (fun v hv => by simp [hv]), ← h b]
    simp
  · rw [holdings_of_same (s := s) fun v => by by_cases hv : v = w <;> simp [hv, hasAgent_addAgent, hb],
      ← h b]
    simp [hb]

theorem dropHolder_heldCountsExact {s : State} (w : WindowId) (a : AgentId) (h : HeldCountsExact s) :
    HeldCountsExact (s.dropHolder w a) := by
  by_cases hheld : hasAgent (s.window w).holders a = true
  swap
  · rwa [dropHolder_of_no_holder (by simpa using hheld)]
  rw [dropHolder_of_holder hheld]
  intro b
  by_cases hb : b = a
  · subst hb
    have hmore := holdings_of_one_more (t := s) (w := w)
      (s := (s.setWindow w { s.window w with holders := dropAgent (s.window w).holders b }).setAgent b
        { s.agent b with held := (s.agent b).held - 1 })
      hheld (by simp [hasAgent_dropAgent]) (fun v hv => by simp [hv])
    rw [State.setAgent_agent, if_pos rfl]
    exact Nat.sub_eq_of_eq_add ((h b).trans hmore)
  · rw [holdings_of_same (s := s) fun v => by by_cases hv : v = w <;> simp [hv, hasAgent_dropAgent, hb],
      ← h b]
    simp [hb]

/-- Where no window has a holder and every held count is 0, the held counts are exact. -/
theorem heldCountsExact_of_empty {s : State} (hw : s.windows = []) (ha : s.agents = []) :
    HeldCountsExact s := by
  intro a
  have hnone : ∀ w, hasAgent (s.window w).holders a = false := fun w => by
    rw [State.window_eq, hw]
    exact hasAgent_zero a
  have hcount : s.holdings a = 0 := List.countP_eq_zero.mpr fun w _ => by rw [hnone w]; decide
  rw [hcount, State.agent_eq, ha]
  rfl

theorem edit_heldCountsExact {s t : State} (he : Edit s t) (h : HeldCountsExact s) :
    HeldCountsExact t := by
  cases he with
  | window w x hx =>
    refine heldCountsExact_congr (s := s) (fun v => ?_) (fun _ => rfl) h
    by_cases hv : v = w <;> simp [hv, hx]
  | agent a r hr =>
    refine heldCountsExact_congr (s := s) (fun _ => rfl) (fun b => ?_) h
    by_cases hb : b = a <;> simp [hb, hr]
  | addHolder w a => exact addHolder_heldCountsExact w a h
  | dropHolder w a => exact dropHolder_heldCountsExact w a h
  | rest _ ht _ => exact heldCountsExact_of_tables ht h
  | _ => exact h

/-- Settles O52: holder sets and held counts change together in every event, and a step is a run of
events. -/
theorem stepKeepsHeldCountsExact : Obligations.StepKeepsHeldCountsExact := by
  intro s t h hstep
  refine step_keeps (P := HeldCountsExact) (fun _ _ h => h) (fun s t he h => ?_) h hstep
  cases he with
  | edit he => exact edit_heldCountsExact he h
  | control _ ht _ => exact heldCountsExact_of_tables ht h
  | clearTables => exact heldCountsExact_of_empty rfl rfl
  | clearEngines => exact h
  | release => exact heldCountsExact_of_empty rfl rfl

end Sys2Proof.Machine
end

section
/-! SUPPORT. RELEASE (O22): what the end of a claim does that ends purges but empties no change, and the
order in which a holding and an answer are removed. -/

namespace Sys2Proof.Machine

/-! ## Tables written twice -/

theorem tableInsert_tableInsert {n : Nat} {α : Type} (t : Table n α) (i : Fin n) (x y : α) :
    tableInsert (tableInsert t i x) i y = tableInsert t i y := by
  induction t with
  | nil => simp [tableInsert]
  | cons z rest ih =>
    obtain ⟨j, v⟩ := z
    by_cases hlt : i < j
    · simp [tableInsert, hlt]
    by_cases heq : i = j
    · simp [tableInsert, heq]
    · simp [tableInsert, hlt, heq, ih]

/-- Of two writes of records other than the unlisted one, the second stands. -/
theorem tableSet_tableSet {n : Nat} {α : Type} [DecidableEq α] {d : α} (t : Table n α) (i : Fin n)
    {x y : α} (hx : x ≠ d) (hy : y ≠ d) : tableSet d (tableSet d t i x) i y = tableSet d t i y := by
  simp only [tableSet, if_neg hx, if_neg hy, tableInsert_tableInsert]

/-- A port record that is not DISABLED is not the unlisted one. -/
theorem port_ne_initial {r : Port} (h : r.state = .up) : r ≠ Port.initial := by
  rintro rfl
  cases h

theorem setPort_setPort {s : State} (p : PortId) {x y : Port} (hx : x.state = .up) (hy : y.state = .up) :
    (s.setPort p x).setPort p y = s.setPort p y := by
  unfold State.setPort
  simp only [tableSet_tableSet _ _ (port_ne_initial hx) (port_ne_initial hy)]

/-! ## The end of a purge (R36) -/

/-- The purge of `a` ends in this claim. -/
abbrev State.PurgeIsOver (u : State) (a : AgentId) : Prop :=
  (u.agent a).state = .purging ∧ (u.agent a).held = 0

theorem welcomePort_of_room {u : State} {a : AgentId} {p : PortId} (hp : (u.agent a).port = some p)
    (h : (u.agent a).welcomeOwed = true ∧ u.HasRoom p) : u.welcomePort none a = some p := by
  obtain ⟨hw, hup, hroom⟩ := h
  simp [State.welcomePort, State.roomFor, hw, hp, hup, hroom]

theorem welcomePort_of_no_room {u : State} {a : AgentId} {p : PortId} (hp : (u.agent a).port = some p)
    (h : ¬ ((u.agent a).welcomeOwed = true ∧ u.HasRoom p)) : u.welcomePort none a = none := by
  by_cases hw : (u.agent a).welcomeOwed = true
  · have hroom : ¬ u.HasRoom p := fun hr => h ⟨hw, hr⟩
    simpa [State.welcomePort, State.roomFor, hw, hp, State.HasRoom] using hroom
  · simp [State.welcomePort, hw]

theorem welcomePort_of_no_port {u : State} {a : AgentId} (hp : (u.agent a).port = none) :
    u.welcomePort none a = none := by
  simp [State.welcomePort, State.roomFor, hp]

/-- The end of a purge in a claim that keeps no place, record by record. -/
theorem endPurge_of_over {u : State} {a : AgentId} (h : u.PurgeIsOver a) :
    u.endPurge none a = u.purgeEnded a := by
  rw [State.endPurge, if_pos h]
  unfold State.reachTarget State.purgeEnded
  cases ht : (u.agent a).target with
  | none => simp only [ht]
  | some target =>
    cases target with
    | absent => simp only [ht]; rfl
    | fenced => simp only [ht]; rfl
    | active =>
      cases hp : (u.agent a).port with
      | none => simp only [ht, hp, welcomePort_of_no_port hp]; rfl
      | some p =>
        by_cases hw : (u.agent a).welcomeOwed = true ∧ u.HasRoom p
        · simp only [ht, hp, welcomePort_of_room hp hw, if_pos hw]
          rw [place_of_room (show (u.setAgent a _).HasRoom p from hw.2)]
          rfl
        · simp only [ht, hp, welcomePort_of_no_room hp hw, if_neg hw]
          rfl

theorem endPurge_of_not_over {u : State} {a : AgentId} (h : ¬ u.PurgeIsOver a) :
    u.endPurge none a = u := if_neg h

/-- The end of a purge changes no other agent's record, and neither the slots nor the engine's queues. -/
theorem reachTarget_frame (u : State) (kept : Option AgentId) (a : AgentId) :
    (∀ b, b ≠ a → (u.reachTarget kept a).agent b = u.agent b) ∧
      (u.reachTarget kept a).slots = u.slots := by
  have hplace : ∀ (t : State) (p : PortId) (m : OutMsg),
      (∀ b, (t.place p m).agent b = t.agent b) ∧ (t.place p m).slots = t.slots := fun t p m => by
    rw [place_only_ports]
    exact ⟨fun _ => rfl, rfl⟩
  have hset : ∀ r, ∀ b, b ≠ a → (u.setAgent a r).agent b = u.agent b := fun r b hb => by simp [hb]
  unfold State.reachTarget
  dsimp only
  split
  · split
    · exact ⟨fun b hb => ((hplace _ _ _).1 b).trans (hset _ b hb), (hplace _ _ _).2⟩
    · exact ⟨hset _, rfl⟩
  · exact ⟨hset _, rfl⟩
  · exact ⟨hset _, rfl⟩
  · exact ⟨fun _ _ => rfl, rfl⟩

theorem endPurge_agent_of_ne (u : State) (kept : Option AgentId) {a b : AgentId} (h : b ≠ a) :
    (u.endPurge kept a).agent b = u.agent b := by
  unfold State.endPurge
  split
  · exact (reachTarget_frame u kept a).1 b h
  · rfl

theorem endPurges_slots (u : State) (kept : Option AgentId) : (u.endPurges kept).slots = u.slots := by
  refine foldl_keeps State.slots _ (fun t a => ?_) allAgents u
  unfold State.endPurge
  split
  · exact (reachTarget_frame t kept a).2
  · rfl

/-- The purges of a list of agents end for those whose purge is over when the first is taken: the end of
one changes no other agent's record. -/
theorem foldl_endPurge (l : List AgentId) (hl : l.Nodup) (u : State) :
    l.foldl (fun s a => s.endPurge none a) u
      = (l.filter fun a => decide (u.PurgeIsOver a)).foldl State.purgeEnded u := by
  induction l generalizing u with
  | nil => rfl
  | cons a l ih =>
    obtain ⟨ha, hl⟩ := List.nodup_cons.mp hl
    have hrest : (l.filter fun b => decide ((u.endPurge none a).PurgeIsOver b))
        = l.filter fun b => decide (u.PurgeIsOver b) := List.filter_congr fun b hb => by
      have hne : b ≠ a := fun he => ha (he ▸ hb)
      exact decide_eq_decide.mpr (by unfold State.PurgeIsOver; rw [endPurge_agent_of_ne u none hne])
    rw [List.foldl_cons, ih hl, hrest, List.filter_cons]
    by_cases hover : u.PurgeIsOver a
    · rw [if_pos (decide_eq_true hover), List.foldl_cons, endPurge_of_over hover]
    · rw [if_neg (by simpa using hover), endPurge_of_not_over hover]

theorem endPurges_none (u : State) : u.endPurges none = u.nothingHeld.foldl State.purgeEnded u :=
  foldl_endPurge allAgents (List.nodup_finRange 32) u

/-! ## The end of a claim that empties no change -/

theorem postAll_eq (s : State) (cs : List Completion) :
    s.postAll cs = { s with
      completions := s.completions ++ cs, reservations := s.reservations - cs.length } := by
  induction cs generalizing s with
  | nil => simp [State.postAll]
  | cons c cs ih =>
    show (s.post c).postAll cs = _
    rw [ih]
    simp [State.post, Nat.sub_sub, Nat.add_comm]

theorem settle_of_none_emptied {u : State} (h : ∀ k, ¬ u.Emptied k) :
    u.settle none false = u.purgesEnded [] := by
  unfold State.settle State.purgesEnded
  simp only [completeEmptied_of_none h, endPurges_none, postAll_eq]
  simp [State.fencesEnded, State.clearFences, State.fencesDone, State.fenceRecord, commandCode]

theorem freeSlot_congr {s t : State} (h : ∀ k, (t.slot k).state = (s.slot k).state) :
    t.freeSlot = s.freeSlot := by
  unfold State.freeSlot
  simp only [h]

theorem slotWait_of_engine {s t : State} (h : t.engine = s.engine) : t.slotWait = s.slotWait :=
  congrArg Engine.slotWait h

/-- A claim that empties no change, with no head that waits while a slot is FREE, ends purges alone. -/
theorem finish_of_none_emptied {u : State} (h : ∀ k, ¬ u.Emptied k)
    (hwait : u.slotWait = true → u.freeSlot = none) : u.finish none = u.purgesEnded [] := by
  have hpost : ∀ (t : State) (cs : List Completion),
      (t.clearFences.postAll cs).slots = t.slots ∧ (t.clearFences.postAll cs).slotWait = t.slotWait :=
    fun t cs => by rw [postAll_eq]; exact ⟨rfl, rfl⟩
  have hsettle := hpost (u.endPurges none)
  have hslots : (u.settle none false).slots = u.slots := by
    unfold State.settle
    rw [completeEmptied_of_none h]
    exact (hsettle _).1.trans (endPurges_slots u none)
  have hslotWait : (u.settle none false).slotWait = u.slotWait := by
    unfold State.settle
    rw [completeEmptied_of_none h]
    exact (hsettle _).2.trans (slotWait_of_engine (endPurges_engine u none))
  have hno : ¬ ((u.settle none false).slotWait = true ∧ (u.settle none false).freeSlot.isSome = true) := by
    rw [hslotWait, freeSlot_congr (s := u) fun k => by rw [State.slot_eq, State.slot_eq, hslots]]
    rintro ⟨hw, hfree⟩
    rw [hwait hw] at hfree
    cases hfree
  rw [finish_none, State.reconsider, if_neg hno, settle_of_none_emptied h]

/-! ## The head of an inbound queue -/

theorem inboundHead_of_cons {s : State} {p : PortId} {m : InMsg} {rest : List InMsg}
    (hup : (s.port p).state = .up) (hin : (s.port p).inbound = m :: rest) :
    s.inboundHead p = some m := by simp [State.inboundHead, hup, hin]

theorem takeInbound_eq_tookFrom {s : State} {p : PortId} {m : InMsg} {rest : List InMsg}
    (hin : (s.port p).inbound = m :: rest) : s.takeInbound p = s.tookFrom p rest := by
  simp [State.takeInbound, State.tookFrom, hin]

theorem exec_release_of_head {s : State} {p : PortId} {a : AgentId} {w : WindowId} {version : Half}
    {rest : List InMsg} (hs : Serving s) (hup : (s.port p).state = .up)
    (hin : (s.port p).inbound = .release a w version :: rest) :
    exec (.release p) s = .next ((s.tookFrom p rest).takeRelease p a w version) := by
  show Host.Outcome.next (s.whenServing _) = _
  rw [whenServing_of_serving hs, ← takeInbound_eq_tookFrom hin]
  simp only [inboundHead_of_cons hup hin]

theorem exec_recallAck_of_head {s : State} {p : PortId} {a : AgentId} {serial : Half}
    {rest : List InMsg} (hs : Serving s) (hup : (s.port p).state = .up)
    (hin : (s.port p).inbound = .recallAck a serial :: rest) :
    exec (.recallAck p) s = .next ((s.tookFrom p rest).takeAck p a serial) := by
  show Host.Outcome.next (s.whenServing _) = _
  rw [whenServing_of_serving hs, ← takeInbound_eq_tookFrom hin]
  simp only [inboundHead_of_cons hup hin]

/-- Only the rest of the queue is left of a message taken from the head, whatever the head was. -/
theorem tookFrom_of_other_head {s : State} {p : PortId} {l rest : List InMsg}
    (hup : (s.port p).state = .up) :
    (s.setPort p { s.port p with inbound := l }).tookFrom p rest = s.tookFrom p rest := by
  unfold State.tookFrom
  rw [State.setPort_port, if_pos rfl]
  refine setPort_setPort p ?_ ?_
  · exact hup
  · exact hup

/-! ## The release of a holding (R17) -/

theorem dropHolder_slot_of_window (s : State) (w : WindowId) (a : AgentId) :
    ((s.dropHolder w a).window w).slot = (s.window w).slot := by
  unfold State.dropHolder
  split
  · simp
  · rfl

theorem takeRelease_of_not_holds {s : State} {p : PortId} {a : AgentId} {w : WindowId} {version : Half}
    (h : ¬ s.ReleaseHolds p a w version) : s.takeRelease p a w version = s := if_neg h

theorem takeRelease_of_no_slot {s : State} {p : PortId} {a : AgentId} {w : WindowId} {version : Half}
    (h : s.ReleaseHolds p a w version) (hslot : (s.window w).slot = none) :
    s.takeRelease p a w version = (s.dropHolder w a).finish none := by
  rw [State.takeRelease, if_pos h]
  simp only [dropHolder_slot_of_window, hslot]

theorem takeRelease_of_slot {s : State} {p : PortId} {a : AgentId} {w : WindowId} {version : Half}
    (h : s.ReleaseHolds p a w version) {k : SlotId} (hslot : (s.window w).slot = some k) :
    s.takeRelease p a w version = ((s.dropHolder w a).dropPending k a).finish none := by
  rw [State.takeRelease, if_pos h]
  simp only [dropHolder_slot_of_window, hslot]

/-- The holding and the answer may be removed in either order. -/
theorem dropPending_dropHolder (s : State) (k : SlotId) (w : WindowId) (a : AgentId) :
    (s.dropPending k a).dropHolder w a = (s.dropHolder w a).dropPending k a := by
  have hwindow : (s.dropPending k a).window w = s.window w := rfl
  cases h : hasAgent (s.window w).holders a with
  | true => rw [dropHolder_of_holder h, dropHolder_of_holder (by rwa [hwindow])]; rfl
  | false => rw [dropHolder_of_no_holder h, dropHolder_of_no_holder (by rwa [hwindow])]

/-- The end of a claim on a settled state that lowers the held count of `a` by one and empties no change:
nothing more happens, unless it was the last holding of a PURGING agent (R36). -/
theorem finish_after_release {s u : State} {a : AgentId} (hs : Settled s)
    (hemptied : ∀ k, ¬ u.Emptied k) (hfree : ∀ k, (u.slot k).state = (s.slot k).state)
    (hagent : ∀ b, u.agent b = if b = a then { s.agent a with held := (s.agent a).held - 1 }
      else s.agent b) (hengine : u.engine = s.engine) :
    (¬ ((s.agent a).state = .purging ∧ (s.agent a).held = 1) → u.finish none = u) ∧
      u.finish none = u.purgesEnded [] := by
  obtain ⟨-, hheld, hfence, hwait⟩ := hs
  have hstate : ∀ b, (u.agent b).state = (s.agent b).state := fun b => by
    rw [hagent b]
    split
    · next hb => rw [hb]
    · rfl
  have hwait' : u.slotWait = true → u.freeSlot = none := by
    rw [slotWait_of_engine hengine, freeSlot_congr hfree]
    exact hwait
  refine ⟨fun hlast => finish_of_settled ⟨hemptied, fun b hb => ?_, fun f hf => ?_, hwait'⟩ none,
    finish_of_none_emptied hemptied hwait'⟩
  · rw [hstate b] at hb
    rw [hagent b]
    split
    · next he =>
      subst he
      have hpos := hheld b hb
      have hmany : (s.agent b).held ≠ 1 := fun h1 => hlast ⟨hb, h1⟩
      show (s.agent b).held - 1 ≠ 0
      omega
    · exact hheld b hb
  · rw [hstate f.agent]
    have hlist : u.fenceWait = s.fenceWait := congrArg Engine.fenceWait hengine
    exact hfence f (hlist ▸ hf)

/-- The agent records after a holding of `a` is removed. -/
theorem dropHolder_agent_of_holder {s : State} {w : WindowId} {a : AgentId}
    (h : hasAgent (s.window w).holders a = true) (b : AgentId) :
    (s.dropHolder w a).agent b
      = if b = a then { s.agent a with held := (s.agent a).held - 1 } else s.agent b := by
  rw [dropHolder_of_holder h]
  exact State.setAgent_agent _ a b _

theorem dropHolder_slot (s : State) (w : WindowId) (a : AgentId) (k : SlotId) :
    (s.dropHolder w a).slot k = s.slot k := by
  unfold State.dropHolder
  split <;> rfl

/-- The end of a RELEASE on a window under no change. -/
theorem finish_dropHolder {s : State} {w : WindowId} {a : AgentId} (hs : Settled s)
    (h : hasAgent (s.window w).holders a = true) :
    (¬ ((s.agent a).state = .purging ∧ (s.agent a).held = 1) →
      (s.dropHolder w a).finish none = s.dropHolder w a) ∧
      (s.dropHolder w a).finish none = (s.dropHolder w a).purgesEnded [] := by
  refine finish_after_release hs (fun k => ?_) (fun k => ?_) (dropHolder_agent_of_holder h)
    (dropHolder_engine s w a)
  · rw [State.Emptied, dropHolder_slot]
    exact hs.1 k
  · rw [dropHolder_slot]

/-- The end of a RELEASE on a window under a change that other agents still have to answer. -/
theorem finish_dropHolder_dropPending {s : State} {w : WindowId} {a : AgentId} {k : SlotId}
    (hs : Settled s) (h : hasAgent (s.window w).holders a = true)
    (hpending : dropAgent (s.slot k).pending a ≠ 0) :
    (¬ ((s.agent a).state = .purging ∧ (s.agent a).held = 1) →
      ((s.dropHolder w a).dropPending k a).finish none = (s.dropHolder w a).dropPending k a) ∧
      ((s.dropHolder w a).dropPending k a).finish none
        = ((s.dropHolder w a).dropPending k a).purgesEnded [] := by
  have hslot : ∀ j, ((s.dropHolder w a).dropPending k a).slot j = if j = k then { s.slot k with
      pending := dropAgent (s.slot k).pending a, unsent := dropAgent (s.slot k).unsent a }
      else s.slot j := fun j => by
    rw [State.dropPending, State.setSlot_slot, dropHolder_slot, dropHolder_slot]
  refine finish_after_release hs (fun j => ?_) (fun j => ?_) (dropHolder_agent_of_holder h)
    (dropHolder_engine s w a)
  · rw [State.Emptied, hslot j]
    split
    · exact fun he => hpending he.2
    · exact hs.1 j
  · rw [hslot j]
    split
    · next hj => rw [hj]
    · rfl

/-- A matched RECALL_ACK of the change of window `w` removes what a RELEASE of `w` removes (R17, R82). -/
theorem takeAck_eq_takeRelease {s : State} {p : PortId} {a : AgentId} {w : WindowId}
    {version serial : Half} {k : SlotId} (hholds : s.ReleaseHolds p a w version)
    (hslot : (s.window w).slot = some k) (hsubject : subjectWindow (s.slot k).subject = some w)
    (hmatch : s.matchAck p a serial = some k) :
    s.takeAck p a serial = s.takeRelease p a w version := by
  have hanswer : s.dropAnswer k a = (s.dropPending k a).dropHolder w a := by
    simp only [State.dropAnswer, hsubject]
  rw [takeRelease_of_slot hholds hslot, ← dropPending_dropHolder, ← hanswer]
  simp only [State.takeAck, hmatch]

/-- Settles O22: a release that is taken is a removed holding, and on a window under a change a removed
answer; the end of the claim then does what that leaves to do. -/
theorem releaseHandsBackAHolding : Obligations.ReleaseHandsBackAHolding := by
  intro s p a w version rest hserving hup hin taken dropped answered last
  have hexec : exec (.release p) s = .next (taken.takeRelease p a w version) :=
    exec_release_of_head hserving hup hin
  have hholder : s.ReleaseHolds p a w version → hasAgent (taken.window w).holders a = true :=
    fun ⟨_, _, _, _, hheld⟩ => hheld
  rw [hexec]
  refine ⟨fun hno => ?_, fun hholds hsettled => ⟨fun hslot => ?_, fun k hslot hpending => ?_⟩,
    fun hholds _ k hslot hsubject => ?_⟩
  · rw [takeRelease_of_not_holds (s := taken) hno]
  · have hheld := hholder hholds
    have hdrop : taken.dropHolder w a = dropped := dropHolder_of_holder hheld
    obtain ⟨hkept, hended⟩ := finish_dropHolder (s := taken) hsettled hheld
    rw [takeRelease_of_no_slot (s := taken) hholds hslot, ← hdrop]
    exact ⟨fun h => by rw [hkept h], fun _ => by rw [hended]⟩
  · have hheld := hholder hholds
    have hdrop : (taken.dropHolder w a).dropPending k a = answered k := by
      rw [dropHolder_of_holder hheld]
      rfl
    obtain ⟨hkept, hended⟩ := finish_dropHolder_dropPending (s := taken) hsettled hheld hpending
    rw [takeRelease_of_slot (s := taken) hholds hslot, ← hdrop]
    exact ⟨fun h => by rw [hkept h], fun _ => by rw [hended]⟩
  · intro ack hmatch
    have hport : ack.port p = { s.port p with inbound := .recallAck a (s.slot k).serial :: rest } := by
      rw [State.setPort_port, if_pos rfl]
    have htook : ack.tookFrom p rest = taken := tookFrom_of_other_head hup
    have hack : exec (.recallAck p) ack
        = .next ((ack.tookFrom p rest).takeAck p a (s.slot k).serial) :=
      exec_recallAck_of_head hserving (by rw [hport]; exact hup) (by rw [hport])
    rw [hack, htook, takeAck_eq_takeRelease (s := taken) hholds hslot hsubject hmatch]

end Sys2Proof.Machine
end

section
/-! SUPPORT. Two runs of one claim side by side. The end of a claim reads of an outbound queue, an owed WELCOME
and an unsent set only where it places a message; so two states that differ in these alone still differ in
these alone when changes complete in both. -/

namespace Sys2Proof.Machine

/-! ## States that differ in messages alone -/

/-- `s` with other port, agent and slot tables. -/
def State.overlay (s : State) (ports : Table 4 Port) (agents : Table 32 Agent) (slots : Table 8 Slot) :
    State :=
  { s with ports := ports, agents := agents, slots := slots }

/-- A relation of agent records that has their states equal and holds on where both lose a holding. -/
structure Steady (R : AgentId → Agent → Agent → Prop) : Prop where
  state : ∀ {c r r'}, R c r r' → r'.state = r.state
  held : ∀ {c r r'}, R c r r' → R c { r with held := r.held - 1 } { r' with held := r'.held - 1 }

/-- `x` and `y` differ in ports, agents and slots alone: the ports as `Q` says, the agents as `R` says, and
the slots in their unsent sets, or not at all where `e` holds. -/
structure Alike (e : Prop) (R : AgentId → Agent → Agent → Prop) (Q : Table 4 Port → Table 4 Port → Prop)
    (x y : State) : Prop where
  rest : ∃ ports agents slots, y = x.overlay ports agents slots
  agent : ∀ c, R c (x.agent c) (y.agent c)
  ports : Q x.ports y.ports
  slot : ∀ k, y.slot k = { x.slot k with unsent := (y.slot k).unsent }
  slots : e → y.slots = x.slots

/-- Two folds over one list keep a relation that each of their steps keeps. -/
theorem foldl_related {σ τ β : Type} {R : σ → τ → Prop} {f : σ → β → σ} {g : τ → β → τ} (l : List β)
    (h : ∀ b ∈ l, ∀ x y, R x y → R (f x b) (g y b)) {x : σ} {y : τ} (hxy : R x y) :
    R (l.foldl f x) (l.foldl g y) := by
  induction l generalizing x y with
  | nil => exact hxy
  | cons b l ih =>
    exact ih (fun c hc => h c (List.mem_cons_of_mem _ hc)) (h b List.mem_cons_self x y hxy)

namespace Alike

variable {e : Prop} {R : AgentId → Agent → Agent → Prop} {Q : Table 4 Port → Table 4 Port → Prop}
  {x y : State}

theorem window (h : Alike e R Q x y) (w : WindowId) : y.window w = x.window w := by
  obtain ⟨_, _, _, rfl⟩ := h.rest
  rfl

theorem windowList (h : Alike e R Q x y) (c : ContextId) : y.windowList c = x.windowList c := by
  obtain ⟨_, _, _, rfl⟩ := h.rest
  rfl

theorem context (h : Alike e R Q x y) (c : ContextId) : y.context c = x.context c := by
  obtain ⟨_, _, _, rfl⟩ := h.rest
  rfl

theorem state (hR : Steady R) (h : Alike e R Q x y) (c : AgentId) :
    (y.agent c).state = (x.agent c).state := hR.state (h.agent c)

theorem slot_eq (h : Alike e R Q x y) (he : e) (k : SlotId) : y.slot k = x.slot k := by
  rw [State.slot_eq, h.slots he, State.slot_eq]

theorem slot_state (h : Alike e R Q x y) (k : SlotId) : (y.slot k).state = (x.slot k).state := by
  rw [h.slot k]

theorem slot_subject (h : Alike e R Q x y) (k : SlotId) : (y.slot k).subject = (x.slot k).subject := by
  rw [h.slot k]

theorem slot_pending (h : Alike e R Q x y) (k : SlotId) : (y.slot k).pending = (x.slot k).pending := by
  rw [h.slot k]

theorem emptied (h : Alike e R Q x y) (k : SlotId) : y.Emptied k ↔ x.Emptied k := by
  unfold State.Emptied
  rw [h.slot_state, h.slot_pending]

/-- An update of neither ports nor agents nor slots that does not read them. -/
theorem map (h : Alike e R Q x y) (f : State → State)
    (hf : ∀ ports agents slots, f (x.overlay ports agents slots) = (f x).overlay ports agents slots)
    (ha : (f x).agents = x.agents) (hp : (f x).ports = x.ports) (hs : (f x).slots = x.slots) :
    Alike e R Q (f x) (f y) := by
  obtain ⟨⟨ports, agents, slots, rfl⟩, hagent, hports, hslot, hslots⟩ := h
  rw [hf]
  refine ⟨⟨ports, agents, slots, rfl⟩, fun c => ?_, ?_, fun k => ?_, fun he => ?_⟩
  · rw [State.agent_eq, ha]
    exact hagent c
  · rw [hp]
    exact hports
  · rw [State.slot_eq (f x), hs]
    exact hslot k
  · rw [hs]
    exact hslots he

theorem setAgent (h : Alike e R Q x y) (a : AgentId) {r r' : Agent} (hr : R a r r') :
    Alike e R Q (x.setAgent a r) (y.setAgent a r') := by
  obtain ⟨⟨ports, agents, slots, rfl⟩, hagent, hports, hslot, hslots⟩ := h
  refine ⟨⟨ports, _, slots, rfl⟩, fun c => ?_, hports, hslot, hslots⟩
  rw [State.setAgent_agent, State.setAgent_agent]
  split
  · next hc => rwa [hc]
  · exact hagent c

theorem setSlot (h : Alike e R Q x y) (k : SlotId) {r r' : Slot} (hr : r' = { r with unsent := r'.unsent })
    (he : e → r' = r) : Alike e R Q (x.setSlot k r) (y.setSlot k r') := by
  obtain ⟨⟨ports, agents, slots, rfl⟩, hagent, hports, hslot, hslots⟩ := h
  refine ⟨⟨ports, agents, _, rfl⟩, hagent, hports, fun j => ?_, fun hh => ?_⟩
  · rw [State.setSlot_slot, State.setSlot_slot]
    split
    · exact hr
    · exact hslot j
  · show tableSet _ slots k r' = tableSet _ x.slots k r
    rw [he hh]
    exact congrArg (tableSet Slot.initial · k r) (hslots hh)

/-- The ports may change on both sides, as long as they stay related. -/
theorem setPorts (h : Alike e R Q x y) {ports ports' : Table 4 Port} (hQ : Q ports ports') :
    Alike e R Q { x with ports := ports } { y with ports := ports' } := by
  obtain ⟨⟨_, agents, slots, rfl⟩, hagent, -, hslot, hslots⟩ := h
  exact ⟨⟨ports', agents, slots, rfl⟩, hagent, hQ, hslot, hslots⟩

/-! ## Holder sets and slots -/

theorem dropHolder (hR : Steady R) (h : Alike e R Q x y) (w : WindowId) (a : AgentId) :
    Alike e R Q (x.dropHolder w a) (y.dropHolder w a) := by
  unfold State.dropHolder
  rw [h.window w]
  split
  · exact (h.map (·.setWindow w _) (fun _ _ _ => rfl) rfl rfl rfl).setAgent a (hR.held (h.agent a))
  · exact h

theorem dropHolders (hR : Steady R) (h : Alike e R Q x y) (w : WindowId) (l : AgentSet) :
    Alike e R Q (x.dropHolders w l) (y.dropHolders w l) :=
  foldl_related (agentsOf l) (fun a _ _ _ h => h.dropHolder hR w a) h

theorem dropPending (h : Alike e R Q x y) (k : SlotId) (a : AgentId) :
    Alike e R Q (x.dropPending k a) (y.dropPending k a) :=
  h.setSlot k (by rw [h.slot k]) fun he => by rw [h.slot_eq he k]

theorem dropAnswer (hR : Steady R) (h : Alike e R Q x y) (k : SlotId) (a : AgentId) :
    Alike e R Q (x.dropAnswer k a) (y.dropAnswer k a) := by
  unfold State.dropAnswer
  rw [h.slot_subject k]
  split
  · exact (h.dropPending k a).dropHolder hR _ a
  · exact h.dropPending k a

theorem quitSlot (hR : Steady R) (h : Alike e R Q x y) (a : AgentId) (k : SlotId) :
    Alike e R Q (x.quitSlot a k) (y.quitSlot a k) := by
  unfold State.quitSlot
  rw [h.slot_state, h.slot_pending]
  split
  · exact h.dropAnswer hR k a
  · exact h

/-! ## Completions -/

theorem freeRecord (h : Alike e R Q x y) (w : WindowId) :
    Alike e R Q (x.freeRecord w) (y.freeRecord w) := by
  have hset := h.map (fun s => s.setWindow w { s.window w with
    state := .free, context := 0, localBase := 0, length := 0, slot := none, poisoned := false })
    (fun _ _ _ => rfl) rfl rfl rfl
  exact hset.map (·.writeGrant w GrantPart.zero) (fun _ _ _ => rfl) rfl rfl rfl

theorem applyRetire (h : Alike e R Q x y) (w : WindowId) :
    Alike e R Q (x.applyRetire w) (y.applyRetire w) := by
  have hlist := h.map (fun s => s.setWindowList (s.window w).context
    ((s.windowList (s.window w).context).erase w)) (fun _ _ _ => rfl) rfl rfl rfl
  unfold State.applyRetire
  dsimp only
  rw [h.window w]
  rw [h.window w] at hlist
  exact (hlist.map (fun s => s.setContext (x.window w).context { s.context (x.window w).context with
    windowCount := (s.context (x.window w).context).windowCount - 1 })
    (fun _ _ _ => rfl) rfl rfl rfl).freeRecord w

theorem movePark (h : Alike e R Q x y) (w : WindowId) : Alike e R Q (x.movePark w) (y.movePark w) := by
  have hlist : y.parkOrder w = x.parkOrder w := by
    obtain ⟨_, _, _, rfl⟩ := h.rest
    rfl
  have hfold := foldl_related (x.parkOrder w)
    (fun e _ _ _ h => h.map (fun s => s.setEntry e { s.entry e with state := .replay })
      (fun _ _ _ => rfl) rfl rfl rfl) h
  unfold State.movePark
  rw [hlist]
  exact hfold.map (fun s => { s.setParkOrder w [] with replayList := s.replayList ++ x.parkOrder w })
    (fun _ _ _ => rfl) rfl rfl rfl

theorem moveParkOf (h : Alike e R Q x y) (z : ChangeSubject) :
    Alike e R Q (x.moveParkOf z) (y.moveParkOf z) := by
  unfold State.moveParkOf
  split
  · exact h.movePark _
  · exact h

theorem leaveWindow (hR : Steady R) (h : Alike e R Q x y) (a : AgentId) (w : WindowId) :
    Alike e R Q (x.leaveWindow a w) (y.leaveWindow a w) := by
  have hdrop := h.dropHolder hR w a
  unfold State.leaveWindow
  dsimp only
  rw [hdrop.window w]
  split
  · next k _ =>
    rw [hdrop.slot_pending k]
    split
    · exact hdrop.dropPending k a
    · exact hdrop
  · exact hdrop

theorem leaveHoldings (hR : Steady R) (h : Alike e R Q x y) (c : ContextId) (a : AgentId) :
    Alike e R Q (x.leaveHoldings c a) (y.leaveHoldings c a) := by
  unfold State.leaveHoldings
  rw [h.windowList c]
  exact foldl_related _ (fun w _ _ _ h => h.leaveWindow hR a w) h

theorem applyClose (hR : Steady R) (h : Alike e R Q x y) (c : ContextId) :
    Alike e R Q (x.applyClose c) (y.applyClose c) := by
  have hfold := foldl_related (x.windowList c)
    (f := fun s w => (s.dropHolders w (s.window w).holders).freeRecord w)
    (g := fun s w => (s.dropHolders w (s.window w).holders).freeRecord w)
    (fun w _ x y h => by
      rw [h.window w]
      exact (h.dropHolders hR w _).freeRecord w) h
  unfold State.applyClose
  rw [h.windowList c]
  exact hfold.map (fun s => (s.setWindowList c []).setContext c { (s.setWindowList c []).context c with
    state := .free, members := 0, leaving := 0, windowCount := 0, closingSlot := none })
    (fun _ _ _ => rfl) rfl rfl rfl

theorem changeEffect (hR : Steady R) (h : Alike e R Q x y) (z : ChangeSubject) (v : NewValues) :
    Alike e R Q (x.changeEffect z v) (y.changeEffect z v) := by
  cases z with
  | modify w => exact h.map (·.applyModify w v) (fun _ _ _ => rfl) rfl rfl rfl
  | retire w => exact h.applyRetire w
  | close c => exact h.applyClose hR c
  | leave c a =>
    exact (h.leaveHoldings hR c a).map (fun s => s.setContext c { s.context c with
      leaving := dropAgent (s.context c).leaving a, members := dropAgent (s.context c).members a })
      (fun _ _ _ => rfl) rfl rfl rfl

/-- The result of a change reads the window records alone. -/
theorem changeResult_eq {e' : Prop} {x' y' : State} (h : Alike e R Q x y) (h' : Alike e' R Q x' y')
    (z : ChangeSubject) (serial : Half) (fenced : AgentSet) :
    changeResult y y' z serial fenced = changeResult x x' z serial fenced := by
  unfold changeResult
  simp only [h.window, h'.window]

theorem completeSlot (hR : Steady R) (h : Alike e R Q x y) (k : SlotId) :
    Alike e R Q (x.completeSlot k).1 (y.completeSlot k).1 ∧ (y.completeSlot k).2 = (x.completeSlot k).2 := by
  have hafter := h.changeEffect hR (x.slot k).subject (x.slot k).newValues
  have hparked := hafter.moveParkOf (x.slot k).subject
  have hresult := h.changeResult_eq hafter (x.slot k).subject (x.slot k).serial (x.slot k).fenced
  unfold State.completeSlot
  dsimp only
  rw [h.slot k]
  refine ⟨hparked.setSlot k ?_ fun he => ?_, ?_⟩
  · rw [hparked.slot k]
  · rw [hparked.slot_eq he k]
  · dsimp only
    rw [hresult]

theorem leaveFirst (hR : Steady R) (h : Alike e R Q x y) (k : SlotId) :
    Alike e R Q (x.leaveFirst k) (y.leaveFirst k) := by
  unfold State.leaveFirst
  rw [h.slot_subject k]
  simp only [h.emptied k]
  split
  · split
    · exact h.leaveHoldings hR _ _
    all_goals exact h
  · exact h

theorem completeIfEmptied (hR : Steady R) {x y : State × List Completion}
    (h : Alike e R Q x.1 y.1 ∧ y.2 = x.2) (k : SlotId) :
    Alike e R Q (Machine.completeIfEmptied x k).1 (Machine.completeIfEmptied y k).1 ∧
      (Machine.completeIfEmptied y k).2 = (Machine.completeIfEmptied x k).2 := by
  obtain ⟨halike, hrecords⟩ := h
  obtain ⟨hdone, hrecord⟩ := halike.completeSlot hR k
  unfold Machine.completeIfEmptied
  simp only [halike.emptied k, hrecords]
  split
  · exact ⟨hdone, congrArg (x.2 ++ [·]) hrecord⟩
  · exact ⟨halike, hrecords⟩

theorem completeEmptied (hR : Steady R) (h : Alike e R Q x y) :
    Alike e R Q x.completeEmptied.1 y.completeEmptied.1 ∧ y.completeEmptied.2 = x.completeEmptied.2 := by
  have hleft := foldl_related allSlots (fun k _ _ _ h => h.leaveFirst hR k) h
  unfold State.completeEmptied
  generalize allSlots.foldl State.leaveFirst x = x' at hleft ⊢
  generalize allSlots.foldl State.leaveFirst y = y' at hleft ⊢
  exact foldl_related
    (R := fun x y : State × List Completion => Alike e R Q x.1 y.1 ∧ y.2 = x.2)
    (x := (x', [])) (y := (y', [])) allSlots (fun k _ _ _ h => completeIfEmptied hR h k) ⟨hleft, rfl⟩

/-! ## Records posted, and what a slot is filled with -/

theorem postAll (h : Alike e R Q x y) (cs : List Completion) :
    Alike e R Q (x.postAll cs) (y.postAll cs) :=
  foldl_related cs (fun c _ _ _ h => h.map (·.post c) (fun _ _ _ => rfl) rfl rfl rfl) h

theorem purgingOf (hR : Steady R) (h : Alike e R Q x y) (l : AgentSet) :
    y.purgingOf l = x.purgingOf l := by
  unfold State.purgingOf
  simp only [h.state hR]

theorem fillRecords (hR : Steady R) (h : Alike e R Q x y) (k : SlotId) (z : ChangeSubject) :
    Alike e R Q (x.fillRecords k z) (y.fillRecords k z) := by
  have hwindow : ∀ w, Alike e R Q
      ((x.setWindow w { x.window w with state := .changing, slot := some k }).dropHolders w
        ((x.setWindow w { x.window w with state := .changing, slot := some k }).purgingOf
          ((x.setWindow w { x.window w with state := .changing, slot := some k }).window w).holders))
      ((y.setWindow w { y.window w with state := .changing, slot := some k }).dropHolders w
        ((y.setWindow w { y.window w with state := .changing, slot := some k }).purgingOf
          ((y.setWindow w { y.window w with state := .changing, slot := some k }).window w).holders)) := by
    intro w
    have hset := h.map (fun s => s.setWindow w { s.window w with state := .changing, slot := some k })
      (fun _ _ _ => rfl) rfl rfl rfl
    dsimp only at hset
    rw [hset.window w, hset.purgingOf hR]
    exact hset.dropHolders hR w _
  cases z with
  | modify w => exact hwindow w
  | retire w => exact hwindow w
  | close c => exact h.map (fun s => s.fillRecords k (.close c)) (fun _ _ _ => rfl) rfl rfl rfl
  | leave c a => exact h.map (fun s => s.fillRecords k (.leave c a)) (fun _ _ _ => rfl) rfl rfl rfl

theorem pendingOf (hR : Steady R) (h : Alike e R Q x y) (z : ChangeSubject) :
    y.pendingOf z = x.pendingOf z := by
  unfold State.pendingOf State.holdersIn
  simp only [h.window, h.windowList, h.purgingOf hR, h.state hR]

theorem nextSerial (h : Alike e R Q x y) : y.nextSerial = x.nextSerial := by
  have hserial : y.serial = x.serial := by
    obtain ⟨_, _, _, rfl⟩ := h.rest
    rfl
  have hused : ∀ n, y.serialInUse n = x.serialInUse n := fun n => by
    unfold State.serialInUse
    congr 1
    funext k
    rw [h.slot k]
  have hfrom : ∀ fuel n, y.serialFrom fuel n = x.serialFrom fuel n := fun fuel => by
    induction fuel with
    | zero => exact fun _ => rfl
    | succ fuel ih => exact fun n => by rw [State.serialFrom, State.serialFrom, hused, ih]
  unfold State.nextSerial
  rw [hserial, hfrom]

end Alike

end Sys2Proof.Machine
end

section
/-! SUPPORT. Where a claim looks for room, and the end of a purge by its target. -/

namespace Sys2Proof.Machine

/-- An operation that keeps states alike, whatever relates their agents and ports. -/
abbrev Uniform (f : State → State) : Prop :=
  ∀ (e : Prop) (R : AgentId → Agent → Agent → Prop) (Q : Table 4 Port → Table 4 Port → Prop)
    (x y : State), Steady R → Alike e R Q x y → Alike e R Q (f x) (f y)

/-- The fence waits that are over leave the list of both. -/
theorem Alike.clearFences {e : Prop} {R : AgentId → Agent → Agent → Prop}
    {Q : Table 4 Port → Table 4 Port → Prop} {x y : State} (hR : Steady R) (h : Alike e R Q x y) :
    Alike e R Q x.clearFences y.clearFences := by
  have hlist : y.clearFences = { y with fenceWait := x.clearFences.fenceWait } := by
    obtain ⟨_, _, _, hy⟩ := h.rest
    unfold State.clearFences
    simp only [h.state hR]
    rw [hy]
    rfl
  rw [hlist]
  exact h.map (fun s => { s with fenceWait := x.clearFences.fenceWait }) (fun _ _ _ => rfl) rfl rfl rfl

/-- A change applied at once posts the same record on both sides. -/
theorem Alike.applyNow {e : Prop} {R : AgentId → Agent → Agent → Prop}
    {Q : Table 4 Port → Table 4 Port → Prop} {x y : State} (hR : Steady R) (h : Alike e R Q x y)
    (r : CmdRecord) (z : ChangeSubject) (v : NewValues) :
    Alike e R Q (x.applyNow r z v) (y.applyNow r z v) := by
  have hafter := h.changeEffect hR z v
  unfold State.applyNow
  dsimp only
  rw [h.changeResult_eq hafter]
  exact hafter.map (·.post _) (fun _ _ _ => rfl) rfl rfl rfl

/-! ## Room for a message -/

theorem roomFor_eq_some_iff {s : State} {kept : Option AgentId} {c : AgentId} {q : PortId} :
    s.roomFor kept c = some q ↔ (s.agent c).port = some q ∧ (s.port q).state = .up ∧
      (s.port q).outbound.length + s.keptPlaces kept c q < 32 := by
  unfold State.roomFor
  cases hport : (s.agent c).port with
  | none => simp
  | some q' =>
    dsimp only
    split
    · next hroom =>
      refine ⟨fun h => ?_, fun h => h.1⟩
      obtain rfl := Option.some.inj h
      exact ⟨rfl, hroom⟩
    · next hroom =>
      refine ⟨fun h => (nomatch h), fun ⟨hq, h⟩ => absurd ?_ hroom⟩
      obtain rfl := Option.some.inj hq
      exact h

theorem keptPlaces_some (s : State) (a c : AgentId) (q : PortId) :
    s.keptPlaces (some a) c q =
      if a ≠ c ∧ (s.agent a).state = .purging ∧ (s.agent a).port = some q then 1 else 0 := rfl

/-- A placement adds its message at the tail of the one queue, where that has room. -/
theorem place_port (s : State) (q j : PortId) (m : OutMsg) :
    (s.place q m).port j = if j = q ∧ s.HasRoom q then
      { s.port q with outbound := (s.port q).outbound ++ [m] } else s.port j := by
  by_cases hroom : s.HasRoom q
  · rw [place_of_room hroom, State.setPort_port]
    exact if_congr (and_iff_left hroom).symm rfl rfl
  · rw [place_of_no_room hroom, if_neg fun h => hroom h.2]

theorem place_agent (s : State) (q : PortId) (m : OutMsg) (c : AgentId) :
    (s.place q m).agent c = s.agent c := by
  rw [place_only_ports]
  rfl

theorem place_slot (s : State) (q : PortId) (m : OutMsg) (k : SlotId) :
    (s.place q m).slot k = s.slot k := by
  rw [place_only_ports]
  rfl

/-! ## The end of a purge by its target -/

theorem reachTarget_placed {s : State} {kept : Option AgentId} {c : AgentId} {q : PortId}
    (ht : (s.agent c).target = some .active) (hroom : s.welcomePort kept c = some q) :
    s.reachTarget kept c = (s.setAgent c
      { s.agent c with state := .active, target := none, welcomeOwed := false }).place q
        (.welcome c .accepted) := by
  simp only [State.reachTarget, ht, hroom]

theorem reachTarget_owed {s : State} {kept : Option AgentId} {c : AgentId}
    (ht : (s.agent c).target = some .active) (hroom : s.welcomePort kept c = none) :
    s.reachTarget kept c = s.setAgent c { s.agent c with state := .active, target := none } := by
  simp only [State.reachTarget, ht, hroom]

theorem endPurge_over {s : State} {kept : Option AgentId} {c : AgentId} (h : s.PurgeIsOver c) :
    s.endPurge kept c =
      { s.reachTarget kept c with purgeSet := dropAgent (s.reachTarget kept c).purgeSet c } := if_pos h

theorem endPurge_not_over {s : State} {kept : Option AgentId} {c : AgentId} (h : ¬ s.PurgeIsOver c) :
    s.endPurge kept c = s := if_neg h

/-- A target other than ACTIVE is reached with no message: the agent's record alone changes, and its port,
if anything, is cleared. -/
theorem Alike.reachTarget_silent {e : Prop} {R : AgentId → Agent → Agent → Prop}
    {Q : Table 4 Port → Table 4 Port → Prop} {x y : State} (h : Alike e R Q x y) {c : AgentId}
    (hsame : y.agent c = x.agent c) (ht : (x.agent c).target ≠ some .active)
    (hnew : ∀ r : Agent, (∀ q, r.port = some q → (x.agent c).port = some q) → R c r r)
    (kept kept' : Option AgentId) :
    Alike e R Q (x.reachTarget kept c) (y.reachTarget kept' c) := by
  unfold State.reachTarget
  rw [hsame]
  cases htarget : (x.agent c).target with
  | none =>
    simp only [htarget]
    exact h
  | some target =>
    cases target with
    | active => exact absurd htarget ht
    | absent =>
      simp only [htarget]
      exact h.setAgent c (hnew _ fun q hq => nomatch hq)
    | fenced =>
      simp only [htarget]
      exact h.setAgent c (hnew _ fun q hq => hq)

theorem place_windows (s : State) (q : PortId) (m : OutMsg) : (s.place q m).windows = s.windows := by
  rw [place_only_ports]

theorem reachTarget_windows (s : State) (kept : Option AgentId) (c : AgentId) :
    (s.reachTarget kept c).windows = s.windows := by
  unfold State.reachTarget
  dsimp only
  split
  · split
    · rw [place_windows]
      rfl
    · rfl
  all_goals rfl

end Sys2Proof.Machine
end

section
/-! SUPPORT. The end of a HELLO claim (R33, log 14), run twice: once with no place kept, once with the place kept
for the WELCOME. The runs are the same until a message takes the port's last place in the first; from then on
they differ in that message and what it leaves, and, once the purge has ended, in the WELCOME. -/

namespace Sys2Proof.Machine

/-! ## How the two runs stand -/

/-- A HELLO claim: its port, its agent, the port's outbound queue before it, and the agents' ports. -/
structure HelloClaim where
  port  : PortId
  agent : AgentId
  queue : List OutMsg
  bound : AgentId → Option PortId

abbrev HelloClaim.welcome (h : HelloClaim) : OutMsg := .welcome h.agent .accepted

/-- What took the last place in the run that keeps none: a WELCOME, or the RECALL of a slot, to an agent. -/
inductive Displaced where
  | welcome (b : AgentId)
  | unsent (k : SlotId) (b : AgentId)

def Displaced.recipient : Displaced → AgentId
  | .welcome b => b
  | .unsent _ b => b

/-- The record of the HELLO's agent, before and after its purge ends. -/
structure HelloClaim.Own (h : HelloClaim) (ended owed : Bool) (r : Agent) : Prop where
  port : r.port = some h.port
  owed : r.welcomeOwed = owed
  purging : ended = false → r.state = .purging ∧ r.target = some .active
  active : ended = true → r.state = .active ∧ r.target = none ∧ r.held = 0

/-- The record of an agent, while no message has been displaced. -/
structure HelloClaim.Stands (h : HelloClaim) (ended : Bool) (c : AgentId) (r : Agent) : Prop where
  bound : ∀ q, r.port = some q → h.bound c = some q
  own : c = h.agent → h.Own ended (!ended) r

/-- The record of the port, while no message has been displaced: before the purge ends a place is free. -/
structure HelloClaim.Queued (h : HelloClaim) (ended : Bool) (r : Port) : Prop where
  up : r.state = .up
  queue : ∃ l, r.outbound = h.queue ++ l ∧ (h.welcome ∈ l ↔ ended = true)
  room : ended = false → r.outbound.length < 32

/-- How one run stands while no message has been displaced. -/
structure HelloClaim.Alone (h : HelloClaim) (ended : Bool) (x : State) : Prop where
  agent : ∀ c, h.Stands ended c (x.agent c)
  port : h.Queued ended (x.port h.port)

/-- The records of an agent in the two runs, after `d` was displaced. -/
structure HelloClaim.Differ (h : HelloClaim) (d : Displaced) (ended : Bool) (c : AgentId) (r r' : Agent) :
    Prop where
  owed : r' = { r with welcomeOwed := r'.welcomeOwed }
  bound : ∀ q, r.port = some q → h.bound c = some q
  own : c = h.agent → h.Own ended true r ∧ r'.welcomeOwed = !ended
  displaced : d = .welcome c → r.state = .active ∧ r.welcomeOwed = false ∧ r'.welcomeOwed = true
  other : c ≠ h.agent → d ≠ .welcome c → r' = r

/-- The ports in the two runs, after `m` was displaced: the HELLO's port is full in the first, and in the
second its last place is free, or holds the WELCOME. -/
structure HelloClaim.LastPlace (h : HelloClaim) (m : OutMsg) (ended : Bool) (ports ports' : Table 4 Port) :
    Prop where
  others : ∀ q, q ≠ h.port → tableGet Port.initial ports' q = tableGet Port.initial ports q
  up : (tableGet Port.initial ports h.port).state = .up
  last : ∃ l, (h.queue ++ l).length = 31 ∧ h.welcome ∉ l ∧
    (tableGet Port.initial ports h.port).outbound = h.queue ++ l ++ [m] ∧
    tableGet Port.initial ports' h.port = { tableGet Port.initial ports h.port with
      outbound := h.queue ++ l ++ if ended then [h.welcome] else [] }

/-- The slots in the two runs, after the RECALL `m` of slot `k` to `b` was displaced. -/
structure RecallKeptUnsent (k : SlotId) (b : AgentId) (m : OutMsg) (x y : State) : Prop where
  emptied : ∀ j, ¬ x.Emptied j
  message : m = x.recallMessage k b false
  slot : ∀ j, y.slot j = if j = k then { x.slot k with unsent := addAgent (x.slot k).unsent b }
    else x.slot j

/-- How the two runs stand after `d` was displaced, whose message is `m`. That the slots then differ in one mark
alone is claimed where `named` holds: where no change can have been emptied by then. -/
structure HelloClaim.Parted (h : HelloClaim) (named : Prop) (d : Displaced) (m : OutMsg) (ended : Bool)
    (x y : State) : Prop where
  alike : Alike (∃ b, d = .welcome b) (h.Differ d ended) (h.LastPlace m ended) x y
  recipient : d.recipient ≠ h.agent ∧ h.bound d.recipient = some h.port
  other : m ≠ h.welcome
  welcome : ∀ b, d = .welcome b → m = .welcome b .accepted
  slots : ∀ k b, d = .unsent k b → named → RecallKeptUnsent k b m x y

/-- How the two runs stand. A RECALL is displaced only after a slot was `filled`. -/
inductive HelloClaim.Course (h : HelloClaim) (named : Prop) (filled : Bool) (x y : State) : Prop
  | together (ended : Bool) (alone : h.Alone ended x) (same : y = x)
  | parted (d : Displaced) (m : OutMsg) (ended : Bool) (hd : filled = false → ∃ b, d = .welcome b)
      (parted : h.Parted named d m ended x y)

variable {h : HelloClaim} {named : Prop} {filled ended : Bool} {d : Displaced} {m : OutMsg} {x y : State}

/-! ## Operations that place nothing -/

/-- One run, beside itself. -/
abbrev HelloClaim.Beside (h : HelloClaim) (ended : Bool) (x y : State) : Prop :=
  Alike True (fun c r r' => r' = r ∧ h.Stands ended c r)
    (fun ports _ => h.Queued ended (tableGet Port.initial ports h.port)) x y

theorem HelloClaim.Alone.beside (hx : h.Alone ended x) : h.Beside ended x x :=
  ⟨⟨_, _, _, rfl⟩, fun c => ⟨rfl, hx.agent c⟩, hx.port, fun _ => rfl, fun _ => rfl⟩

theorem alone_of_beside (hx : h.Beside ended x y) : h.Alone ended x :=
  ⟨fun c => (hx.agent c).2, hx.ports⟩

theorem HelloClaim.Own.held {owed : Bool} {r : Agent} (hr : h.Own ended owed r) :
    h.Own ended owed { r with held := r.held - 1 } where
  port := hr.port
  owed := hr.owed
  purging := hr.purging
  active he := by
    obtain ⟨hstate, htarget, hheld⟩ := hr.active he
    exact ⟨hstate, htarget, by simp [hheld]⟩

theorem beside_steady (h : HelloClaim) (ended : Bool) :
    Steady fun c r r' => r' = r ∧ h.Stands ended c r where
  state hr := by rw [hr.1]
  held hr := ⟨by rw [hr.1], hr.2.bound, fun hc => (hr.2.own hc).held⟩

theorem differ_steady (h : HelloClaim) (d : Displaced) (ended : Bool) : Steady (h.Differ d ended) where
  state hr := by rw [hr.owed]
  held hr :=
    { owed := by rw [hr.owed]
      bound := hr.bound
      own := fun hc => ⟨(hr.own hc).1.held, (hr.own hc).2⟩
      displaced := hr.displaced
      other := fun hc hd => by rw [hr.other hc hd] }

theorem HelloClaim.Alone.map (hx : h.Alone ended x) {f : State → State} (hf : Uniform f) :
    h.Alone ended (f x) := 
  alone_of_beside (hf _ _ _ _ _ (beside_steady h ended) hx.beside)

theorem RecallKeptUnsent.congr {k : SlotId} {b : AgentId} {x' y' : State}
    (hr : RecallKeptUnsent k b m x y) (hx : x'.slots = x.slots) (hw : x'.windows = x.windows)
    (hy : y'.slots = y.slots) : RecallKeptUnsent k b m x' y' := by
  have hslot : ∀ j, x'.slot j = x.slot j := fun j => by rw [State.slot_eq, hx]; rfl
  have hwindow : ∀ w, x'.window w = x.window w := fun w => by rw [State.window_eq, hw]; rfl
  refine ⟨fun j => ?_, ?_, fun j => ?_⟩
  · rw [State.Emptied, hslot j]
    exact hr.emptied j
  · rw [hr.message]
    unfold State.recallMessage State.recallScope
    simp only [hslot, hwindow]
  · rw [State.slot_eq, hy, hslot, hslot]
    exact hr.slot j

/-- An operation that places nothing keeps the course; once a slot was filled it must leave slots and windows
as they are in a state that empties no change. -/
theorem HelloClaim.Course.map (hc : h.Course named filled x y) {f : State → State} (hf : Uniform f)
    (hkeep : filled = true → ∀ s, (∀ j, ¬ s.Emptied j) → (f s).slots = s.slots ∧
      (f s).windows = s.windows) : h.Course named filled (f x) (f y) := by
  cases hc with
  | together ended alone same => exact .together ended (alone.map hf) (by rw [same])
  | parted d m ended hd hp =>
    refine .parted d m ended hd ⟨hf _ _ _ _ _ (differ_steady h d ended) hp.alike, hp.recipient, hp.other,
      hp.welcome, fun k b hk hn => ?_⟩
    have hr := hp.slots k b hk hn
    cases filled with
    | false =>
      obtain ⟨b', hb⟩ := hd rfl
      rw [hb] at hk
      cases hk
    | true =>
      have hx := hkeep rfl x hr.emptied
      exact hr.congr hx.1 hx.2
        (hkeep rfl y fun j hj => hr.emptied j ((hp.alike.emptied j).mp hj)).1

/-! ## Room for a message in the two runs -/

/-- After a message was displaced, both runs have room for another agent on the same ports, and neither has
room on the HELLO's. -/
theorem HelloClaim.Parted.roomFor (hp : h.Parted named d m ended x y) {c : AgentId}
    (hc : c ≠ h.agent ∨ ended = true) :
    y.roomFor (some h.agent) c = x.roomFor none c ∧ x.roomFor none c ≠ some h.port := by
  obtain ⟨l, hlen, -, hx, hy⟩ := hp.alike.ports.last
  have hown := (hp.alike.agent h.agent).own rfl
  have hrecord := (hp.alike.agent h.agent).owed
  have hfull : x.roomFor none c ≠ some h.port := fun hroom => by
    have hlt := (roomFor_eq_some_iff.mp hroom).2.2
    rw [State.port_eq, hx, List.length_append, hlen] at hlt
    simp at hlt
  refine ⟨Option.ext fun q => ?_, hfull⟩
  have hport : (y.agent c).port = (x.agent c).port := by rw [(hp.alike.agent c).owed]
  by_cases hq : q = h.port
  · subst hq
    refine ⟨fun hroom => ?_, fun hroom => absurd hroom hfull⟩
    have hlt := (roomFor_eq_some_iff.mp hroom).2.2
    rw [State.port_eq, hy] at hlt
    cases ended with
    | true =>
      simp only [if_true, List.length_append, hlen, List.length_singleton] at hlt
      omega
    | false =>
      have hne : h.agent ≠ c := fun he => hc.elim (fun hc => hc he.symm) (by simp)
      have hkept : y.keptPlaces (some h.agent) c h.port = 1 := by
        rw [keptPlaces_some, hrecord]
        exact if_pos ⟨hne, (hown.1.purging rfl).1, hown.1.port⟩
      simp [hlen, hkept] at hlt
  · have hkept : y.keptPlaces (some h.agent) c q = 0 := by
      rw [keptPlaces_some, hrecord]
      refine if_neg fun hk => hq ?_
      have hq' := hk.2.2
      simp only [hown.1.port] at hq'
      exact (Option.some.inj hq').symm
    have hports : y.port q = x.port q := hp.alike.ports.others q hq
    rw [roomFor_eq_some_iff, roomFor_eq_some_iff, hport, hports, hkept, keptPlaces_none]

/-- While the runs are together they have room on the same ports, but for the one place kept. -/
theorem HelloClaim.Alone.roomFor (hx : h.Alone ended x) (c : AgentId) :
    x.roomFor (some h.agent) c = x.roomFor none c ∨
      (x.roomFor (some h.agent) c = none ∧ x.roomFor none c = some h.port ∧ ended = false ∧
        c ≠ h.agent ∧ (x.port h.port).outbound.length = 31) := by
  have hown := (hx.agent h.agent).own rfl
  by_cases hkept : ∀ q, (x.agent c).port = some q → x.keptPlaces (some h.agent) c q = 0
  · refine .inl (Option.ext fun q => ?_)
    rw [roomFor_eq_some_iff, roomFor_eq_some_iff, keptPlaces_none]
    exact and_congr_right fun hq => by rw [hkept q hq]
  simp only [not_forall] at hkept
  obtain ⟨q, hq, hk⟩ := hkept
  rw [keptPlaces_some] at hk
  split at hk
  swap
  · exact absurd rfl hk
  next hcond =>
  obtain ⟨hne, hpurging, hport⟩ := hcond
  obtain rfl : h.port = q := Option.some.inj (hown.port.symm.trans hport)
  have hended : ended = false := by
    cases ended with
    | false => rfl
    | true => rw [(hown.active rfl).1] at hpurging; cases hpurging
  have hplace : x.keptPlaces (some h.agent) c h.port = 1 := if_pos ⟨hne, hpurging, hport⟩
  have hlt := hx.port.room hended
  have hother : ∀ kept q', x.roomFor kept c = some q' → q' = h.port := fun kept q' hr =>
    Option.some.inj ((roomFor_eq_some_iff.mp hr).1.symm.trans hq)
  have hfree : x.roomFor none c = some h.port :=
    roomFor_eq_some_iff.mpr ⟨hq, hx.port.up, by simpa using hlt⟩
  by_cases hlast : (x.port h.port).outbound.length = 31
  · refine .inr ⟨Option.eq_none_iff_forall_ne_some.mpr fun q' hr => ?_, hfree, hended, hne.symm, hlast⟩
    obtain rfl := hother _ _ hr
    have := (roomFor_eq_some_iff.mp hr).2.2
    omega
  · refine .inl (hfree ▸ roomFor_eq_some_iff.mpr ⟨hq, hx.port.up, ?_⟩)
    omega

end Sys2Proof.Machine
end

section
/-! SUPPORT. What a purge's end and a first RECALL do to the two runs of a HELLO claim. -/

namespace Sys2Proof.Machine

variable {h : HelloClaim} {named : Prop} {filled ended : Bool} {d : Displaced} {m : OutMsg} {x y : State}

/-! ## The runs together -/

theorem HelloClaim.Queued.append {r : Port} (hr : h.Queued ended r) (hm : m ≠ h.welcome)
    (hroom : ended = false → r.outbound.length + 1 < 32) :
    h.Queued ended { r with outbound := r.outbound ++ [m] } where
  up := hr.up
  queue := by
    obtain ⟨l, hl, hmem⟩ := hr.queue
    refine ⟨l ++ [m], by simp [hl], ?_⟩
    rw [← hmem, List.mem_append, List.mem_singleton]
    exact or_iff_left hm.symm
  room he := by simpa using hroom he

/-- A message other than the WELCOME is placed; before the purge ends a place stays free. -/
theorem HelloClaim.Alone.place (hx : h.Alone ended x) {q : PortId} (hm : m ≠ h.welcome)
    (hroom : ended = false → q = h.port → (x.port h.port).outbound.length + 1 < 32) :
    h.Alone ended (x.place q m) := by
  refine ⟨fun c => by rw [place_agent]; exact hx.agent c, ?_⟩
  rw [place_port]
  split
  · next hq =>
    obtain rfl := hq.1
    exact hx.port.append hm fun he => hroom he rfl
  · exact hx.port

theorem HelloClaim.Alone.setAgent (hx : h.Alone ended x) {c : AgentId} {r : Agent}
    (hr : h.Stands ended c r) : h.Alone ended (x.setAgent c r) := by
  refine ⟨fun b => ?_, hx.port⟩
  rw [State.setAgent_agent]
  split
  · next hb => rwa [hb]
  · exact hx.agent b

/-- Another agent's record may change, but not to another port. -/
theorem HelloClaim.Alone.stands (hx : h.Alone ended x) {c : AgentId} (hc : c ≠ h.agent) {r : Agent}
    (hr : ∀ q, r.port = some q → (x.agent c).port = some q) : h.Stands ended c r :=
  ⟨fun q hq => (hx.agent c).bound q (hr q hq), fun he => absurd he hc⟩

/-- Where room is found beside the place kept, a message leaves a place free. -/
theorem HelloClaim.Alone.room_left (hx : h.Alone ended x) {c : AgentId} {q : PortId} (hc : c ≠ h.agent)
    (hroom : x.roomFor (some h.agent) c = some q) (he : ended = false) (hq : q = h.port) :
    (x.port h.port).outbound.length + 1 < 32 := by
  subst hq
  have hlt := (roomFor_eq_some_iff.mp hroom).2.2
  have hown := (hx.agent h.agent).own rfl
  rwa [keptPlaces_some, if_pos ⟨hc.symm, (hown.purging he).1, hown.port⟩] at hlt

/-- The HELLO's agent finds the place that is free before its purge ends. -/
theorem HelloClaim.Alone.welcomePort (hx : h.Alone ended x) (he : ended = false) (kept : Option AgentId)
    (hkept : kept = none ∨ kept = some h.agent) : x.welcomePort kept h.agent = some h.port := by
  have hown := (hx.agent h.agent).own rfl
  have hplaces : x.keptPlaces kept h.agent h.port = 0 := by
    rcases hkept with rfl | rfl
    · rfl
    · rw [keptPlaces_some]
      exact if_neg fun hk => hk.1 rfl
  rw [State.welcomePort, if_pos (by rw [hown.owed, he]; rfl), roomFor_eq_some_iff, hplaces]
  exact ⟨hown.port, hx.port.up, hx.port.room he⟩

theorem HelloClaim.Alone.ended_of_over (hx : h.Alone ended x) (hover : x.PurgeIsOver h.agent) :
    ended = false := by
  cases ended with
  | false => rfl
  | true =>
    have hactive := (((hx.agent h.agent).own rfl).active rfl).1
    rw [hover.1] at hactive
    cases hactive

theorem welcome_ne {c : AgentId} (hc : c ≠ h.agent) : OutMsg.welcome c .accepted ≠ h.welcome :=
  fun he => hc (by cases he; rfl)

/-- The HELLO's purge ends: its agent is ACTIVE with nothing held, and its WELCOME is placed. -/
theorem HelloClaim.Alone.endPurge_own (hx : h.Alone ended x) (hover : x.PurgeIsOver h.agent) :
    h.Alone true (x.endPurge (some h.agent) h.agent) := by
  obtain rfl := hx.ended_of_over hover
  have hown := (hx.agent h.agent).own rfl
  have hroom : x.HasRoom h.port := ⟨hx.port.up, hx.port.room rfl⟩
  rw [endPurge_over hover,
    reachTarget_placed (hown.purging rfl).2 (hx.welcomePort rfl _ (.inr rfl))]
  suffices h.Alone true ((x.setAgent h.agent { x.agent h.agent with
      state := .active, target := none, welcomeOwed := false }).place h.port h.welcome) from
    ⟨this.agent, this.port⟩
  refine ⟨fun c => ?_, ?_⟩
  · rw [place_agent, State.setAgent_agent]
    split
    · next hc =>
      subst hc
      exact ⟨(hx.agent h.agent).bound, fun _ => ⟨hown.port, rfl, nofun, fun _ => ⟨rfl, rfl, hover.2⟩⟩⟩
    · next hc => exact ⟨(hx.agent c).bound, fun he => absurd he hc⟩
  · rw [place_port, if_pos ⟨rfl, hroom⟩]
    obtain ⟨l, hl, -⟩ := hx.port.queue
    exact ⟨hx.port.up, ⟨l ++ [h.welcome], by simp [hl], by simp⟩, nofun⟩

/-- The run that keeps the place stays as it is described, whoever's purge ends. -/
theorem HelloClaim.Alone.endPurge (hx : h.Alone ended x) (c : AgentId) :
    ∃ ended', h.Alone ended' (x.endPurge (some h.agent) c) := by
  by_cases hover : x.PurgeIsOver c
  swap
  · exact ⟨ended, by rwa [endPurge_not_over hover]⟩
  by_cases hc : c = h.agent
  · subst hc
    exact ⟨true, hx.endPurge_own hover⟩
  refine ⟨ended, ?_⟩
  rw [endPurge_over hover]
  suffices h.Alone ended (x.reachTarget (some h.agent) c) from ⟨this.agent, this.port⟩
  by_cases ht : (x.agent c).target = some .active
  · cases hroom : x.welcomePort (some h.agent) c with
    | none =>
      rw [reachTarget_owed ht hroom]
      exact hx.setAgent (hx.stands hc fun _ hq => hq)
    | some q =>
      rw [reachTarget_placed ht hroom]
      have hfound : x.roomFor (some h.agent) c = some q := by
        unfold State.welcomePort at hroom
        split at hroom
        · exact hroom
        · cases hroom
      refine HelloClaim.Alone.place (hx.setAgent ?_) (welcome_ne hc) (hx.room_left hc hfound)
      exact hx.stands hc fun _ hq => hq
  · exact alone_of_beside (hx.beside.reachTarget_silent rfl ht
      (fun r hr => ⟨rfl, hx.stands hc hr⟩) _ none)

/-- A purge ends alike in both runs, unless its WELCOME takes the last place in the first. -/
theorem HelloClaim.Alone.endPurge_eq_or (hx : h.Alone ended x) (c : AgentId) :
    x.endPurge (some h.agent) c = x.endPurge none c ∨
      (x.PurgeIsOver c ∧ (x.agent c).target = some .active ∧ (x.agent c).welcomeOwed = true ∧
        x.roomFor (some h.agent) c = none ∧ x.roomFor none c = some h.port ∧ ended = false ∧
        c ≠ h.agent ∧ (x.port h.port).outbound.length = 31) := by
  have heq : x.reachTarget (some h.agent) c = x.reachTarget none c →
      x.endPurge (some h.agent) c = x.endPurge none c := fun he => by
    unfold State.endPurge
    rw [he]
  have hroom : x.welcomePort (some h.agent) c = x.welcomePort none c →
      x.reachTarget (some h.agent) c = x.reachTarget none c := fun he => by
    unfold State.reachTarget
    rw [he]
  by_cases hover : x.PurgeIsOver c
  swap
  · exact .inl (by rw [endPurge_not_over hover, endPurge_not_over hover])
  by_cases howed : (x.agent c).welcomeOwed = true
  swap
  · exact .inl (heq (hroom (by simp only [State.welcomePort, if_neg howed])))
  by_cases ht : (x.agent c).target = some .active
  swap
  · refine .inl (heq ?_)
    unfold State.reachTarget
    dsimp only
    split
    · next ha => exact absurd ha ht
    all_goals rfl
  rcases hx.roomFor c with hsame | ⟨hnone, hsome, hended, hc, hlast⟩
  · exact .inl (heq (hroom (by simp only [State.welcomePort, hsame])))
  · exact .inr ⟨hover, ht, howed, hnone, hsome, hended, hc, hlast⟩

/-! ## The message displaced -/

/-- The ports when the last place goes to `m` in the first run alone. -/
theorem HelloClaim.Alone.lastPlace (hx : h.Alone false x) (hlast : (x.port h.port).outbound.length = 31) :
    h.LastPlace m false (x.place h.port m).ports x.ports := by
  have hroom : x.HasRoom h.port := ⟨hx.port.up, hx.port.room rfl⟩
  obtain ⟨l, hl, hmem⟩ := hx.port.queue
  have hport : ∀ q, tableGet Port.initial (x.place h.port m).ports q = (x.place h.port m).port q :=
    fun _ => rfl
  refine ⟨fun q hq => ?_, ?_, l, ?_, fun hw => by simpa using hmem.mp hw, ?_, ?_⟩
  · rw [hport, place_port, if_neg fun hh => hq hh.1]
    rfl
  · rw [hport, place_port, if_pos ⟨rfl, hroom⟩]
    exact hx.port.up
  · rw [← hl, hlast]
  · rw [hport, place_port, if_pos ⟨rfl, hroom⟩]
    simp [hl]
  · rw [hport, place_port, if_pos ⟨rfl, hroom⟩]
    show x.port h.port = _
    simp [← hl]

/-- The agents, right after a message for another agent than `c` was displaced, or none for `c`. -/
theorem HelloClaim.Alone.differ (hx : h.Alone false x) {c : AgentId} (hd : d ≠ .welcome c) :
    h.Differ d false c (x.agent c) (x.agent c) where
  owed := rfl
  bound := (hx.agent c).bound
  own hc := ⟨(hx.agent c).own hc, ((hx.agent c).own hc).owed⟩
  displaced he := absurd he hd
  other _ _ := rfl

theorem HelloClaim.Parted.leavePurgeSet (hp : h.Parted named d m ended x y) (c : AgentId) :
    h.Parted named d m ended { x with purgeSet := dropAgent x.purgeSet c }
      { y with purgeSet := dropAgent y.purgeSet c } :=
  ⟨hp.alike.map (fun s => { s with purgeSet := dropAgent s.purgeSet c }) (fun _ _ _ => rfl) rfl rfl rfl,
    hp.recipient, hp.other, hp.welcome, fun k b hk hn => (hp.slots k b hk hn).congr rfl rfl rfl⟩

theorem HelloClaim.Alone.endPurge_displaced (hx : h.Alone false x) {c : AgentId}
    (hover : x.PurgeIsOver c) (ht : (x.agent c).target = some .active)
    (howed : (x.agent c).welcomeOwed = true) (hnone : x.roomFor (some h.agent) c = none)
    (hsome : x.roomFor none c = some h.port) (hc : c ≠ h.agent)
    (hlast : (x.port h.port).outbound.length = 31) :
    h.Parted named (.welcome c) (.welcome c .accepted) false (x.endPurge none c)
      (x.endPurge (some h.agent) c) := by
  have hbound := (hx.agent c).bound _ (roomFor_eq_some_iff.mp hsome).1
  rw [endPurge_over hover, endPurge_over hover,
    reachTarget_placed ht (by rw [State.welcomePort, if_pos howed, hsome]),
    reachTarget_owed ht (by rw [State.welcomePort, if_pos howed, hnone])]
  refine HelloClaim.Parted.leavePurgeSet ?_ c
  have hset : h.Alone false (x.setAgent c { x.agent c with
      state := .active, target := none, welcomeOwed := false }) :=
    hx.setAgent (hx.stands hc fun _ hq => hq)
  refine ⟨⟨⟨_, _, _, by rw [place_only_ports]; rfl⟩, fun b => ?_, hset.lastPlace hlast, fun k => ?_,
    fun _ => by rw [place_only_ports]; rfl⟩, ⟨hc, hbound⟩, welcome_ne hc, fun b hb => by cases hb; rfl,
    fun k b hk => nomatch hk⟩
  · rw [place_agent, State.setAgent_agent, State.setAgent_agent]
    by_cases hb : b = c
    · subst hb
      simp only [if_true]
      exact ⟨rfl, (hx.agent b).bound, fun he => absurd he hc, fun _ => ⟨rfl, rfl, howed⟩,
        fun _ hd => absurd rfl hd⟩
    · simp only [if_neg hb]
      exact hx.differ fun hd => hb (by cases hd; rfl)
  · rw [place_slot]
    rfl

theorem HelloClaim.Alone.endPurge_course (hx : h.Alone ended x) (c : AgentId) :
    h.Course named filled (x.endPurge none c) (x.endPurge (some h.agent) c) := by
  rcases hx.endPurge_eq_or c with hsame | ⟨hover, ht, howed, hnone, hsome, rfl, hc, hlast⟩
  · obtain ⟨ended', hx'⟩ := hx.endPurge c
    exact .together ended' (hsame ▸ hx') hsame
  · exact .parted _ _ false (fun _ => ⟨c, rfl⟩)
      (hx.endPurge_displaced hover ht howed hnone hsome hc hlast)

/-- A first RECALL is placed or kept alike in both runs, unless it takes the last place in the first. -/
theorem HelloClaim.Alone.firstRecall_course (hx : h.Alone ended x) {k : SlotId} {c : AgentId}
    (hc : c = h.agent → ended = true) (hemptied : named → ∀ j, ¬ x.Emptied j) :
    h.Course named true (x.firstRecall none k c) (x.firstRecall (some h.agent) k c) := by
  have hwelcome : x.recallMessage k c false ≠ h.welcome := nofun
  rcases hx.roomFor c with hsame | ⟨hnone, hsome, rfl, hne, hlast⟩
  · refine .together ended ?_ (by unfold State.firstRecall; rw [hsame])
    unfold State.firstRecall
    cases hroom : x.roomFor none c with
    | none => exact ⟨hx.agent, hx.port⟩
    | some q =>
      refine hx.place hwelcome fun he => ?_
      exact hx.room_left (fun hca => by rw [hc hca] at he; cases he) (hsame.trans hroom) he
  · refine .parted (.unsent k c) (x.recallMessage k c false) false (fun he => nomatch he) ?_
    have hbound := (hx.agent c).bound _ (roomFor_eq_some_iff.mp hsome).1
    simp only [State.firstRecall, hnone, hsome]
    rw [place_only_ports]
    refine ⟨⟨⟨_, _, _, rfl⟩, fun b => hx.differ (fun hd => nomatch hd), hx.lastPlace hlast, fun j => ?_,
      fun ⟨_, he⟩ => nomatch he⟩, ⟨hne, hbound⟩, hwelcome, fun _ he => (nomatch he), fun k' b hk hn => ?_⟩
    · rw [State.setSlot_slot]
      split
      · next hj => subst hj; rfl
      · rfl
    · cases hk
      exact ⟨hemptied hn, rfl, fun j => State.setSlot_slot _ _ _ _⟩

/-! ## The runs apart -/

/-- A message placed on another port than the HELLO's is placed in both runs. -/
theorem place_elsewhere {e : Prop} {R : AgentId → Agent → Agent → Prop}
    (hxy : Alike e R (h.LastPlace m ended) x y) {q : PortId} (hq : q ≠ h.port) (m' : OutMsg) :
    Alike e R (h.LastPlace m ended) (x.place q m') (y.place q m') := by
  have hports : ∀ j, j ≠ h.port → y.port j = x.port j := hxy.ports.others
  have hread : ∀ (s : State) j, tableGet Port.initial (s.place q m').ports j = (s.place q m').port j :=
    fun _ _ => rfl
  have hown : ∀ s : State, (s.place q m').port h.port = s.port h.port := fun s => by
    rw [place_port, if_neg fun hh => hq hh.1.symm]
  obtain ⟨l, hlen, hmem, hx, hy⟩ := hxy.ports.last
  rw [place_only_ports x, place_only_ports y]
  refine hxy.setPorts ⟨fun j hj => ?_, ?_, l, hlen, hmem, ?_, ?_⟩
  · have hroom : y.HasRoom q ↔ x.HasRoom q := by
      unfold State.HasRoom
      rw [hports q hq]
    rw [hread, hread]
    simp only [place_port, hroom, hports j hj, hports q hq]
  · rw [hread, hown]
    exact hxy.ports.up
  · rw [hread, hown]
    exact hx
  · rw [hread, hread, hown, hown]
    exact hy

theorem HelloClaim.Parted.over_iff (hp : h.Parted named d m ended x y) (c : AgentId) :
    y.PurgeIsOver c ↔ x.PurgeIsOver c := by
  unfold State.PurgeIsOver
  rw [(hp.alike.agent c).owed]

/-- Its purge not ended yet, the HELLO's agent finds no room with no place kept, and the last place with the
place kept. -/
theorem HelloClaim.Parted.welcomePort (hp : h.Parted named d m false x y) :
    x.welcomePort none h.agent = none ∧ y.welcomePort (some h.agent) h.agent = some h.port ∧
      y.HasRoom h.port := by
  obtain ⟨hown, hown'⟩ := (hp.alike.agent h.agent).own rfl
  have hrecord := (hp.alike.agent h.agent).owed
  obtain ⟨l, hlen, -, hx, hy⟩ := hp.alike.ports.last
  have hyport : y.port h.port = _ := hy
  have hyup : (y.port h.port).state = .up := by rw [hyport]; exact hp.alike.ports.up
  have hylen : (y.port h.port).outbound.length = 31 := by simpa [hyport] using hlen
  refine ⟨?_, ?_, hyup, by rw [hylen]; decide⟩
  · rw [State.welcomePort, if_pos hown.owed]
    refine Option.eq_none_iff_forall_ne_some.mpr fun q hq => ?_
    obtain ⟨hq, -, hlt⟩ := roomFor_eq_some_iff.mp hq
    obtain rfl := Option.some.inj (hown.port.symm.trans hq)
    rw [State.port_eq, hx, List.length_append, hlen] at hlt
    simp at hlt
  · rw [State.welcomePort, if_pos (by rw [hown']; rfl), roomFor_eq_some_iff, keptPlaces_some,
      if_neg fun hk => hk.1 rfl, hylen]
    exact ⟨by rw [hrecord]; exact hown.port, hyup, by omega⟩

/-- The WELCOME takes the place that was kept. -/
theorem HelloClaim.LastPlace.welcomed (hq : h.LastPlace m false x.ports y.ports)
    (hroom : y.HasRoom h.port) : h.LastPlace m true x.ports (y.place h.port h.welcome).ports := by
  have hread : ∀ j, tableGet Port.initial (y.place h.port h.welcome).ports j
      = (y.place h.port h.welcome).port j := fun _ => rfl
  obtain ⟨l, hlen, hmem, hx, hy⟩ := hq.last
  have hyport : y.port h.port = _ := hy
  refine ⟨fun q hne => ?_, hq.up, l, hlen, hmem, hx, ?_⟩
  · rw [hread, place_port, if_neg fun hh => hne hh.1]
    exact hq.others q hne
  · rw [hread, place_port, if_pos ⟨rfl, hroom⟩, hyport]
    simp

/-- The record of the HELLO's agent in the two runs, with its purge ended. -/
theorem HelloClaim.Differ.afterEnd {r r' : Agent} (hr : h.Differ d false h.agent r r')
    (hd : d.recipient ≠ h.agent) (hheld : r.held = 0) :
    h.Differ d true h.agent { r with state := .active, target := none }
      { r' with state := .active, target := none, welcomeOwed := false } where
  owed := by rw [hr.owed]
  bound := hr.bound
  own _ := ⟨⟨(hr.own rfl).1.port, (hr.own rfl).1.owed, nofun, fun _ => ⟨rfl, rfl, hheld⟩⟩, rfl⟩
  displaced he := absurd (by rw [he]; rfl) hd
  other hne := absurd rfl hne

/-- The purge of the HELLO's agent ends: with no place kept its WELCOME stays owed, with the place kept it is
placed. -/
theorem HelloClaim.Parted.endPurge_own (hp : h.Parted named d m ended x y)
    (hover : x.PurgeIsOver h.agent) :
    h.Parted named d m true (x.endPurge none h.agent) (y.endPurge (some h.agent) h.agent) := by
  have hown := ((hp.alike.agent h.agent).own rfl).1
  obtain rfl : ended = false := by
    cases ended with
    | false => rfl
    | true =>
      have hactive := (hown.active rfl).1
      rw [hover.1] at hactive
      cases hactive
  have htarget := (hown.purging rfl).2
  have htarget' : (y.agent h.agent).target = some .active := by
    rw [(hp.alike.agent h.agent).owed]
    exact htarget
  obtain ⟨hnone, hsome, hroom⟩ := hp.welcomePort
  rw [endPurge_over hover, endPurge_over ((hp.over_iff h.agent).mpr hover),
    reachTarget_owed htarget hnone, reachTarget_placed htarget' hsome]
  refine HelloClaim.Parted.leavePurgeSet ?_ h.agent
  obtain ⟨⟨P, A, L, hrest⟩, hagent, hports, hslot, hslots⟩ := hp.alike
  refine ⟨⟨⟨_, _, _, by rw [place_only_ports, hrest]; rfl⟩, fun c => ?_, ?_, fun k => ?_, fun he => ?_⟩,
    hp.recipient, hp.other, hp.welcome,
    fun k b hk hn => (hp.slots k b hk hn).congr rfl rfl (by rw [place_only_ports]; rfl)⟩
  · rw [place_agent, State.setAgent_agent, State.setAgent_agent]
    by_cases hc : c = h.agent
    · subst hc
      simp only [if_true]
      exact (hagent h.agent).afterEnd hp.recipient.1 hover.2
    · simp only [if_neg hc]
      exact ⟨(hagent c).owed, (hagent c).bound, fun he => absurd he hc, (hagent c).displaced,
        (hagent c).other⟩
  · exact HelloClaim.LastPlace.welcomed hports hroom
  · rw [place_slot]
    exact hslot k
  · rw [place_only_ports]
    exact hslots he

/-- Another agent's purge ends alike in both runs. -/
theorem HelloClaim.Parted.endPurge_other (hp : h.Parted named d m ended x y) {c : AgentId}
    (hc : c ≠ h.agent) : h.Parted named d m ended (x.endPurge none c) (y.endPurge (some h.agent) c) := by
  by_cases hover : x.PurgeIsOver c
  swap
  · rw [endPurge_not_over hover, endPurge_not_over fun hy => hover ((hp.over_iff c).mp hy)]
    exact hp
  have hd : d ≠ .welcome c := fun hd => by
    have hactive := ((hp.alike.agent c).displaced hd).1
    rw [hover.1] at hactive
    cases hactive
  have hsame : y.agent c = x.agent c := (hp.alike.agent c).other hc hd
  have hnew : ∀ r : Agent, (∀ q, r.port = some q → (x.agent c).port = some q) → h.Differ d ended c r r :=
    fun r hr => ⟨rfl, fun q hq => (hp.alike.agent c).bound q (hr q hq), fun he => absurd he hc,
      fun he => absurd he hd, fun _ _ => rfl⟩
  rw [endPurge_over hover, endPurge_over ((hp.over_iff c).mpr hover)]
  refine HelloClaim.Parted.leavePurgeSet ?_ c
  suffices hreach : Alike (∃ b, d = .welcome b) (h.Differ d ended) (h.LastPlace m ended)
      (x.reachTarget none c) (y.reachTarget (some h.agent) c) from
    ⟨hreach, hp.recipient, hp.other, hp.welcome, fun k b hk hn => (hp.slots k b hk hn).congr
      (reachTarget_frame _ _ _).2 (reachTarget_windows _ _ _) (reachTarget_frame _ _ _).2⟩
  by_cases ht : (x.agent c).target = some .active
  swap
  · exact hp.alike.reachTarget_silent hsame ht hnew _ _
  obtain ⟨hroom, hfull⟩ := hp.roomFor (.inl hc)
  have hport : y.welcomePort (some h.agent) c = x.welcomePort none c := by
    simp only [State.welcomePort, hsame, hroom]
  cases hfound : x.welcomePort none c with
  | none =>
    rw [reachTarget_owed ht hfound, reachTarget_owed (hsame ▸ ht) (hport.trans hfound), hsame]
    exact hp.alike.setAgent c (hnew _ fun _ hq => hq)
  | some q =>
    have hq : q ≠ h.port := fun hq => by
      unfold State.welcomePort at hfound
      split at hfound
      · exact hfull (hq ▸ hfound)
      · cases hfound
    rw [reachTarget_placed ht hfound, reachTarget_placed (hsame ▸ ht) (hport.trans hfound), hsame]
    refine place_elsewhere (hp.alike.setAgent c ?_) hq _
    exact hnew _ fun _ hq => hq

theorem HelloClaim.Parted.endPurge (hp : h.Parted named d m ended x y) (c : AgentId) :
    ∃ ended', h.Parted named d m ended' (x.endPurge none c) (y.endPurge (some h.agent) c) := by
  by_cases hover : x.PurgeIsOver c
  · by_cases hc : c = h.agent
    · subst hc
      exact ⟨true, hp.endPurge_own hover⟩
    · exact ⟨ended, hp.endPurge_other hc⟩
  · rw [endPurge_not_over hover, endPurge_not_over fun hy => hover ((hp.over_iff c).mp hy)]
    exact ⟨ended, hp⟩

/-- A mark in an unsent set is one among others. -/
theorem addAgent_right_comm (u : AgentSet) (a b : AgentId) :
    addAgent (addAgent u a) b = addAgent (addAgent u b) a :=
  agentSet_ext fun c => by simp only [hasAgent_addAgent, Bool.or_right_comm]

/-- A RECALL kept unsent in both runs leaves the one displaced before the only difference. -/
theorem RecallKeptUnsent.keep_unsent {k j : SlotId} {b c : AgentId} (hr : RecallKeptUnsent k b m x y) :
    RecallKeptUnsent k b m (x.setSlot j { x.slot j with unsent := addAgent (x.slot j).unsent c })
      (y.setSlot j { y.slot j with unsent := addAgent (y.slot j).unsent c }) := by
  obtain ⟨hemptied, hmessage, hslot⟩ := hr
  refine ⟨fun i => ?_, ?_, fun i => ?_⟩
  · rw [State.Emptied, State.setSlot_slot]
    split
    · exact hemptied j
    · exact hemptied i
  · rw [hmessage]
    unfold State.recallMessage
    rw [State.setSlot_slot]
    split
    · next hk => subst hk; rfl
    · rfl
  · simp only [State.setSlot_slot, hslot]
    by_cases hij : i = j
    · by_cases hik : i = k
      · subst hij
        subst hik
        simp [addAgent_right_comm]
      · subst hij
        simp [hik]
    · by_cases hik : i = k
      · subst hik
        simp [hij]
      · simp [hij, hik]

theorem HelloClaim.Parted.firstRecall (hp : h.Parted named d m ended x y) {k : SlotId} {c : AgentId}
    (hc : c = h.agent → ended = true) :
    h.Parted named d m ended (x.firstRecall none k c) (y.firstRecall (some h.agent) k c) := by
  have hroom := hp.roomFor (c := c) ((em (c = h.agent)).elim (fun he => .inr (hc he)) .inl)
  have hmessage : y.recallMessage k c false = x.recallMessage k c false := by
    unfold State.recallMessage State.recallScope
    rw [hp.alike.slot k]
    simp only [hp.alike.window]
  unfold State.firstRecall
  rw [hroom.1]
  cases hfound : x.roomFor none c with
  | none =>
    dsimp only
    refine ⟨hp.alike.setSlot k ?_ fun he => ?_, hp.recipient, hp.other, hp.welcome,
      fun k' b hk hn => (hp.slots k' b hk hn).keep_unsent⟩
    · rw [hp.alike.slot k]
    · rw [hp.alike.slot_eq he k]
  | some q =>
    dsimp only
    rw [hmessage]
    refine ⟨place_elsewhere hp.alike (fun hq => hroom.2 (hq ▸ hfound)) _, hp.recipient, hp.other,
      hp.welcome, fun k' b hk hn => (hp.slots k' b hk hn).congr ?_ (place_windows _ _ _) ?_⟩
    all_goals rw [place_only_ports]

end Sys2Proof.Machine
end

section
/-! SUPPORT. The end of a HELLO claim, run with no place kept and with the place kept: settling, and the second
look at a head that waits for a slot, whose fill places RECALLs. -/

namespace Sys2Proof.Machine

/-! ## Filling a slot, in steps -/

/-- The records as the fill of slot `k` leaves them before the slot itself (R76, steps 1 to 5). -/
def State.recordsFilled (s : State) (k : SlotId) (z : ChangeSubject) : State :=
  { s with serial := s.nextSerial }.fillRecords k z

/-- The fill of slot `k` before its first RECALLs (R76, steps 1 to 6). -/
def State.slotOpened (s : State) (k : SlotId) (z : ChangeSubject) (v : NewValues) (tag : Half) : State :=
  (s.recordsFilled k z).setSlot k ⟨.active, s.nextSerial, z,
    filledValues z v ((s.recordsFilled k z).slot k).newValues, tag, (s.recordsFilled k z).pendingOf z, 0, 0,
    false, 0, .nothing⟩

theorem fillSlot_eq (s : State) (kept : Option AgentId) (k : SlotId) (z : ChangeSubject) (v : NewValues)
    (tag : Half) : s.fillSlot kept k z v tag = (agentsOf ((s.recordsFilled k z).pendingOf z)).foldl
      (fun s a => s.firstRecall kept k a) (s.slotOpened k z v tag) := rfl

/-- What touches and reads neither ports nor agents nor slots keeps states alike. -/
theorem uniform_of_overlay {f : State → State}
    (hf : ∀ s P A L, f (s.overlay P A L) = (f s).overlay P A L)
    (hkeep : ∀ s, (f s).agents = s.agents ∧ (f s).ports = s.ports ∧ (f s).slots = s.slots) : Uniform f :=
  fun _ _ _ x _ _ h => h.map f (hf x) (hkeep x).1 (hkeep x).2.1 (hkeep x).2.2

theorem recordsFilled_uniform (k : SlotId) (z : ChangeSubject) : Uniform (·.recordsFilled k z) := by
  intro e R Q x y hR h
  show Alike e R Q (x.recordsFilled k z) (y.recordsFilled k z)
  unfold State.recordsFilled
  rw [h.nextSerial]
  exact (h.map (fun s => { s with serial := x.nextSerial }) (fun _ _ _ => rfl) rfl rfl rfl).fillRecords
    hR k z

theorem slotOpened_uniform (k : SlotId) (z : ChangeSubject) (v : NewValues) (tag : Half) :
    Uniform (·.slotOpened k z v tag) := by
  intro e R Q x y hR h
  have hfilled : Alike e R Q (x.recordsFilled k z) (y.recordsFilled k z) :=
    recordsFilled_uniform k z e R Q x y hR h
  show Alike e R Q (x.slotOpened k z v tag) (y.slotOpened k z v tag)
  unfold State.slotOpened
  have hvalues : ((y.recordsFilled k z).slot k).newValues = ((x.recordsFilled k z).slot k).newValues := by
    rw [hfilled.slot k]
  rw [h.nextSerial, hfilled.pendingOf hR, hvalues]
  exact hfilled.setSlot k rfl fun _ => rfl

theorem dropHolders_slot (s : State) (w : WindowId) (x : AgentSet) (k : SlotId) :
    (s.dropHolders w x).slot k = s.slot k :=
  foldl_keeps (State.slot · k) _ (fun _ _ => dropHolder_slot _ _ _ _) _ _

theorem fillRecords_slot (s : State) (k : SlotId) (z : ChangeSubject) (j : SlotId) :
    (s.fillRecords k z).slot j = s.slot j := by
  cases z with
  | modify w => exact dropHolders_slot _ _ _ _
  | retire w => exact dropHolders_slot _ _ _ _
  | close c => rfl
  | leave c a => rfl

/-- A fill that finds agents to ask empties no change. -/
theorem slotOpened_not_emptied {s : State} {k : SlotId} {z : ChangeSubject} (v : NewValues) (tag : Half)
    {c : AgentId} (hc : hasAgent ((s.recordsFilled k z).pendingOf z) c = true)
    (h : ∀ j, ¬ s.Emptied j) (j : SlotId) : ¬ (s.slotOpened k z v tag).Emptied j := by
  rw [State.Emptied, State.slotOpened, State.setSlot_slot]
  split
  · rintro ⟨-, hp⟩
    dsimp only at hp
    rw [hp, hasAgent_zero] at hc
    cases hc
  · rw [State.recordsFilled, fillRecords_slot]
    exact h j

/-! ## Who is asked -/

theorem hasAgent_foldl_purging (s : State) (l : List AgentId) (y : AgentSet) (a : AgentId) :
    hasAgent (l.foldl (fun y a => if (s.agent a).state = .purging then addAgent y a else y) y) a
      = (hasAgent y a || decide (a ∈ l ∧ (s.agent a).state = .purging)) := by
  induction l generalizing y with
  | nil => simp
  | cons b l ih =>
    rw [List.foldl_cons, ih]
    by_cases hb : (s.agent b).state = .purging
    · by_cases hab : a = b
      · subst hab
        simp [hb, hasAgent_addAgent]
      · simp [hb, hasAgent_addAgent, hab]
    · by_cases hab : a = b
      · subst hab
        simp [hb]
      · simp [hb, hab]

theorem hasAgent_purgingOf (s : State) (x : AgentSet) (a : AgentId) :
    hasAgent (s.purgingOf x) a = (hasAgent x a && decide ((s.agent a).state = .purging)) := by
  unfold State.purgingOf
  rw [hasAgent_foldl_purging, hasAgent_zero, Bool.false_or]
  simp [mem_agentsOf]

theorem dropHolders_state (s : State) (w : WindowId) (x : AgentSet) (a : AgentId) :
    ((s.dropHolders w x).agent a).state = (s.agent a).state := by
  refine foldl_keeps (fun s : State => (s.agent a).state) _ (fun s b => ?_) _ _
  unfold State.dropHolder
  split
  · rw [State.setAgent_agent]
    split
    · next hb => rw [hb]
    · rfl
  · rfl

theorem recordsFilled_state (s : State) (k : SlotId) (z : ChangeSubject) (a : AgentId) :
    ((s.recordsFilled k z).agent a).state = (s.agent a).state := by
  cases z with
  | modify w => exact dropHolders_state _ _ _ _
  | retire w => exact dropHolders_state _ _ _ _
  | close c => rfl
  | leave c b => rfl

/-- No PURGING agent is asked (R15, R77). -/
theorem pendingOf_purging {s : State} {k : SlotId} {z : ChangeSubject} {a : AgentId}
    (ha : (s.agent a).state = .purging) :
    hasAgent ((s.recordsFilled k z).pendingOf z) a = false := by
  have hwindow : ∀ (t : State) w, (t.agent a).state = .purging →
      hasAgent ((t.dropHolders w (t.purgingOf (t.window w).holders)).window w).holders a = false :=
    fun t w ht => by
      rw [hasAgent_dropHolders, hasAgent_purgingOf, ht]
      simp
  cases z with
  | modify w => exact hwindow _ w ha
  | retire w => exact hwindow _ w ha
  | close c =>
    have hstate : ((s.recordsFilled k (.close c)).agent a).state = .purging := ha
    have hnot := hasAgent_purgingOf (s.recordsFilled k (.close c))
      ((s.recordsFilled k (.close c)).holdersIn c) a
    rw [hstate, decide_eq_true rfl, Bool.and_true] at hnot
    have hdiff : ∀ u v : AgentSet, hasAgent v a = hasAgent u a → hasAgent (u &&& ~~~v) a = false :=
      fun u v huv => by
        unfold hasAgent at huv ⊢
        rw [BitVec.getLsbD_and, BitVec.getLsbD_not, huv]
        cases u.getLsbD a.val <;> simp
    exact hdiff _ _ hnot
  | leave c b =>
    have hstate : ((s.recordsFilled k (.leave c b)).agent b).state = (s.agent b).state := rfl
    show hasAgent (if ((s.recordsFilled k (.leave c b)).agent b).state = .purging then 0
      else oneAgent b) a = false
    rw [hstate]
    split
    · exact hasAgent_zero a
    · next hb =>
      rw [hasAgent_oneAgent, decide_eq_false_iff_not]
      exact fun hab => hb (hab ▸ ha)

theorem firstRecall_agent (s : State) (kept : Option AgentId) (k : SlotId) (c b : AgentId) :
    (s.firstRecall kept k c).agent b = s.agent b := by
  unfold State.firstRecall
  split
  · exact place_agent _ _ _ _
  · rfl

theorem firstRecall_emptied (s : State) (kept : Option AgentId) (k : SlotId) (c : AgentId) (j : SlotId) :
    (s.firstRecall kept k c).Emptied j ↔ s.Emptied j := by
  unfold State.firstRecall State.Emptied
  split
  · rw [place_slot]
  · rw [State.setSlot_slot]
    split
    · next hj => rw [hj]
    · rfl

/-! ## The course of the two runs -/

variable {h : HelloClaim} {named : Prop} {filled ended : Bool} {x y : State}

namespace HelloClaim.Course

theorem late (hc : h.Course named false x y) : h.Course named true x y := by
  cases hc with
  | together ended alone same => exact .together ended alone same
  | parted d m ended _ hp => exact .parted d m ended nofun hp

theorem overlay (hc : h.Course named filled x y) :
    ∃ P A L, y = x.overlay P A L ∧ (filled = false → L = x.slots) := by
  cases hc with
  | together ended alone same => exact ⟨x.ports, x.agents, x.slots, same, fun _ => rfl⟩
  | parted d m ended hd hp =>
    obtain ⟨P, A, L, hrest⟩ := hp.alike.rest
    refine ⟨P, A, L, hrest, fun hf => ?_⟩
    have hslots := hp.alike.slots (hd hf)
    rwa [hrest] at hslots

/-- What reads neither ports nor agents reads the same in both runs, before a slot is filled. -/
theorem read {γ : Type} (hc : h.Course named false x y) (f : State → γ)
    (hf : ∀ s P A, f (s.overlay P A s.slots) = f s) : f y = f x := by
  obtain ⟨P, A, L, hy, hL⟩ := hc.overlay
  rw [hy, hL rfl, hf]

theorem agent (hc : h.Course named filled x y) (c : AgentId) :
    y.agent c = { x.agent c with welcomeOwed := (y.agent c).welcomeOwed } := by
  cases hc with
  | together ended alone same => rw [same]
  | parted d m ended hd hp => exact (hp.alike.agent c).owed

theorem emptied (hc : h.Course named filled x y) (k : SlotId) : y.Emptied k ↔ x.Emptied k := by
  cases hc with
  | together ended alone same => rw [same]
  | parted d m ended hd hp => exact hp.alike.emptied k

theorem endPurges (hc : h.Course named filled x y) :
    h.Course named filled (x.endPurges none) (y.endPurges (some h.agent)) := by
  refine foldl_related allAgents (fun c _ x y hc => ?_) hc
  cases hc with
  | together ended alone same =>
    subst same
    exact alone.endPurge_course c
  | parted d m ended hd hp =>
    obtain ⟨ended', hp'⟩ := hp.endPurge c
    exact .parted d m ended' hd hp'

theorem completeEmptied (hc : h.Course named filled x y) :
    h.Course named filled x.completeEmptied.1 y.completeEmptied.1 :=
  hc.map (f := fun s => s.completeEmptied.1) (fun _ _ _ _ _ hR h => (h.completeEmptied hR).1)
    fun _ s hs => by rw [completeEmptied_of_none hs]; exact ⟨rfl, rfl⟩

theorem completeEmptied_records (hc : h.Course named filled x y) :
    y.completeEmptied.2 = x.completeEmptied.2 := by
  cases hc with
  | together ended alone same => rw [same]
  | parted d m ended hd hp => exact (hp.alike.completeEmptied (differ_steady h d ended)).2

theorem fences (hc : h.Course named filled x y) :
    y.fencesDone.map y.fenceRecord = x.fencesDone.map x.fenceRecord := by
  obtain ⟨P, A, L, hy, -⟩ := hc.overlay
  have hlist : y.fenceWait = x.fenceWait := by rw [hy]; rfl
  have hstate : ∀ c, (y.agent c).state = (x.agent c).state := fun c => by rw [hc.agent c]
  have hport : ∀ c, (y.agent c).port = (x.agent c).port := fun c => by rw [hc.agent c]
  unfold State.fencesDone State.fenceRecord
  simp only [hlist, hstate, hport]

theorem post (hc : h.Course named filled x y) (cs : List Completion) :
    h.Course named filled (x.clearFences.postAll cs) (y.clearFences.postAll cs) :=
  hc.map (f := fun s => s.clearFences.postAll cs)
    (fun _ _ _ _ _ hR h => (h.clearFences hR).postAll cs)
    fun _ s _ => by rw [postAll_eq]; exact ⟨rfl, rfl⟩

theorem settle (hc : h.Course named filled x y) (late : Bool) :
    h.Course named filled (x.settle none late) (y.settle (some h.agent) late) := by
  have hended := hc.completeEmptied.endPurges
  unfold State.settle
  dsimp only
  rw [hended.fences, hc.completeEmptied_records]
  exact hended.post _

theorem firstRecall (hc : h.Course named true x y) {k : SlotId} {c : AgentId}
    (hown : c = h.agent → (x.agent c).state ≠ .purging) (hemptied : named → ∀ j, ¬ x.Emptied j) :
    h.Course named true (x.firstRecall none k c) (y.firstRecall (some h.agent) k c) := by
  cases hc with
  | together ended alone same =>
    subst same
    refine alone.firstRecall_course (fun he => ?_) hemptied
    by_contra hn
    exact hown he (((alone.agent c).own he).purging (by simpa using hn)).1
  | parted d m ended hd hp =>
    refine .parted d m ended hd (hp.firstRecall fun he => ?_)
    by_contra hn
    exact hown he ((((hp.alike.agent c).own he).1).purging (by simpa using hn)).1

theorem fillSlot (hc : h.Course named false x y) (hemptied : named → ∀ j, ¬ x.Emptied j) (k : SlotId)
    (z : ChangeSubject) (v : NewValues) (tag : Half) :
    h.Course named true (x.fillSlot none k z v tag) (y.fillSlot (some h.agent) k z v tag) := by
  have hopened : h.Course named true (x.slotOpened k z v tag) (y.slotOpened k z v tag) :=
    (hc.map (slotOpened_uniform k z v tag) nofun).late
  have hpending : (y.recordsFilled k z).pendingOf z = (x.recordsFilled k z).pendingOf z := by
    cases hc with
    | together ended alone same => rw [same]
    | parted d m ended hd hp =>
      exact (recordsFilled_uniform k z _ _ _ _ _ (differ_steady h d ended) hp.alike).pendingOf
        (differ_steady h d ended) z
  have hown : ∀ c ∈ agentsOf ((x.recordsFilled k z).pendingOf z),
      ((x.slotOpened k z v tag).agent c).state ≠ .purging := fun c hmem hpurging => by
    have hstate : ((x.slotOpened k z v tag).agent c).state = (x.agent c).state :=
      recordsFilled_state x k z c
    rw [mem_agentsOf, pendingOf_purging (hstate ▸ hpurging)] at hmem
    cases hmem
  have hnone : ∀ c ∈ agentsOf ((x.recordsFilled k z).pendingOf z), named →
      ∀ j, ¬ (x.slotOpened k z v tag).Emptied j := fun c hmem hn =>
    slotOpened_not_emptied v tag ((mem_agentsOf _ c).mp hmem) (hemptied hn)
  rw [fillSlot_eq, fillSlot_eq, hpending]
  exact (foldl_related (R := fun x' y' => h.Course named true x' y' ∧
      (∀ b, x'.agent b = (x.slotOpened k z v tag).agent b) ∧
      ∀ j, x'.Emptied j ↔ (x.slotOpened k z v tag).Emptied j)
    (agentsOf ((x.recordsFilled k z).pendingOf z)) (fun c hmem x' y' ⟨hc', hagent, hiff⟩ =>
      ⟨hc'.firstRecall (c := c) (fun _ => by rw [hagent]; exact hown c hmem)
          (fun hn j hj => hnone c hmem hn j ((hiff j).mp hj)),
        fun b => (firstRecall_agent _ _ _ _ _).trans (hagent b),
        fun j => (firstRecall_emptied _ _ _ _ _).trans (hiff j)⟩)
    ⟨hopened, fun _ => rfl, fun _ => Iff.rfl⟩).1

theorem carryOut (hc : h.Course named false x y) (hemptied : named → ∀ j, ¬ x.Emptied j) (late : Bool)
    (r : CmdRecord) (j : Judgement) :
    h.Course named true (x.carryOut none late r j) (y.carryOut (some h.agent) late r j) := by
  have htake : h.Course named false x.takeCommand y.takeCommand :=
    hc.map (f := State.takeCommand) (uniform_of_overlay (fun _ _ _ _ => rfl) (fun _ => ⟨rfl, rfl, rfl⟩)) nofun
  cases j with
  | refused status =>
    exact (htake.map (f := (·.post (refusal r status)))
      (uniform_of_overlay (fun _ _ _ _ => rfl) fun _ => ⟨rfl, rfl, rfl⟩) nofun).late
  | immediate z v =>
    exact (htake.map (f := (·.applyNow r z v)) (fun _ _ _ _ _ hR h => h.applyNow hR r z v) nofun).late
  | needsSlot z v =>
    have hfree : y.freeSlot = x.freeSlot := hc.read State.freeSlot fun _ _ _ => rfl
    unfold State.carryOut
    dsimp only
    rw [hfree]
    cases x.freeSlot with
    | none =>
      exact (hc.map (f := fun s => { s with slotWait := true })
        (uniform_of_overlay (fun _ _ _ _ => rfl) fun _ => ⟨rfl, rfl, rfl⟩) nofun).late
    | some k => exact (htake.fillSlot hemptied k z v _).settle late

theorem reconsider (hc : h.Course named false x y) (hemptied : named → ∀ j, ¬ x.Emptied j) :
    h.Course named true (x.reconsider none) (y.reconsider (some h.agent)) := by
  have hwait : y.slotWait = x.slotWait := hc.read State.slotWait fun _ _ _ => rfl
  have hfree : y.freeSlot = x.freeSlot := hc.read State.freeSlot fun _ _ _ => rfl
  have hqueue : y.cmdQueue = x.cmdQueue := hc.read State.cmdQueue fun _ _ _ => rfl
  unfold State.reconsider
  rw [hwait, hfree, hqueue]
  split
  · split
    · next r _ _ =>
      have hjudge : judgeChange y r = judgeChange x r := hc.read (judgeChange · r) fun _ _ _ => rfl
      rw [hjudge]
      exact hc.carryOut hemptied true r _
    · exact hc.late
  · exact hc.late

end HelloClaim.Course

/-- The two runs of a claim's end, from one state. -/
theorem HelloClaim.Alone.runs {u : State} (hu : h.Alone ended u)
    (hemptied : named → ∀ j, ¬ (u.settle none false).Emptied j) :
    h.Course named true ((u.settle none false).reconsider none)
      ((u.settle (some h.agent) false).reconsider (some h.agent)) :=
  ((HelloClaim.Course.together (filled := false) ended hu rfl).settle false).reconsider hemptied

end Sys2Proof.Machine
end

section
/-! SUPPORT. Settling leaves no change emptied where a window's slot holds a change of a window (R1, R91, R95): the
removals of a LEAVE empty window changes alone, and they are all made before the first completion. -/

namespace Sys2Proof.Machine

/-- A window's change slot holds a change of a window. -/
def SlotsNamed (s : State) : Prop :=
  ∀ w k, (s.window w).slot = some k → subjectWindow (s.slot k).subject ≠ none

theorem slotsNamed_of_changesNamed {s : State} (h : ChangesNamed s) : SlotsNamed s := fun w k hk => by
  rw [((h w).2 k hk).2]
  exact nofun

/-- No change of a window in the list of context `c` waits for agent `a`. -/
def State.LeaveDone (s : State) (c : ContextId) (a : AgentId) : Prop :=
  ∀ w ∈ s.windowList c, ∀ k, (s.window w).slot = some k → hasAgent (s.slot k).pending a = false

/-! ## The removals of the LEAVEs -/

/-- From `s` to `t` answers alone were removed, and from window changes alone. -/
structure Sheds (s t : State) : Prop where
  lists : ∀ c, t.windowList c = s.windowList c
  windows : ∀ w, (t.window w).slot = (s.window w).slot
  subject : ∀ k, (t.slot k).subject = (s.slot k).subject
  pending : ∀ k a, hasAgent (s.slot k).pending a = false → hasAgent (t.slot k).pending a = false
  others : ∀ k, subjectWindow (s.slot k).subject = none → t.slot k = s.slot k

namespace Sheds

variable {s t u : State}

theorem refl (s : State) : Sheds s s :=
  ⟨fun _ => rfl, fun _ => rfl, fun _ => rfl, fun _ _ h => h, fun _ _ => rfl⟩

theorem trans (h : Sheds s t) (h' : Sheds t u) : Sheds s u where
  lists c := (h'.lists c).trans (h.lists c)
  windows w := (h'.windows w).trans (h.windows w)
  subject k := (h'.subject k).trans (h.subject k)
  pending k a hn := h'.pending k a (h.pending k a hn)
  others k hk := (h'.others k (by rw [h.subject k]; exact hk)).trans (h.others k hk)

theorem named (h : Sheds s t) (hs : SlotsNamed s) : SlotsNamed t := fun w k hk => by
  rw [h.windows w] at hk
  rw [h.subject k]
  exact hs w k hk

theorem leaveDone (h : Sheds s t) {c : ContextId} {a : AgentId} (hs : s.LeaveDone c a) :
    t.LeaveDone c a := fun w hw k hk => by
  rw [h.lists c] at hw
  rw [h.windows w] at hk
  exact h.pending k a (hs w hw k hk)

/-- A fold sheds answers when each of its steps does. -/
theorem foldl {β : Type} {op : State → β → State} (hop : ∀ s b, SlotsNamed s → Sheds s (op s b))
    (l : List β) (s : State) (hs : SlotsNamed s) : Sheds s (l.foldl op s) := by
  induction l generalizing s with
  | nil => exact refl s
  | cons b l ih =>
    have hstep := hop s b hs
    exact hstep.trans (ih _ (hstep.named hs))

end Sheds

theorem dropHolder_window_slot (s : State) (w : WindowId) (a : AgentId) (v : WindowId) :
    ((s.dropHolder w a).window v).slot = (s.window v).slot := by
  unfold State.dropHolder
  split
  · rw [State.setAgent_window, State.setWindow_window]
    split
    · next hv => rw [hv]
    · rfl
  · rfl

theorem dropHolder_windowList (s : State) (w : WindowId) (a : AgentId) (c : ContextId) :
    (s.dropHolder w a).windowList c = s.windowList c := by
  unfold State.dropHolder
  split <;> rfl

theorem dropHolder_sheds (s : State) (w : WindowId) (a : AgentId) : Sheds s (s.dropHolder w a) where
  lists := dropHolder_windowList s w a
  windows := dropHolder_window_slot s w a
  subject k := by rw [dropHolder_slot]
  pending k b h := by rwa [dropHolder_slot]
  others k _ := dropHolder_slot s w a k

theorem dropPending_slot (s : State) (k : SlotId) (a : AgentId) (j : SlotId) :
    (s.dropPending k a).slot j = if j = k then { s.slot k with
      pending := dropAgent (s.slot k).pending a, unsent := dropAgent (s.slot k).unsent a }
      else s.slot j := State.setSlot_slot _ _ _ _

theorem dropPending_sheds {s : State} {k : SlotId} (h : subjectWindow (s.slot k).subject ≠ none)
    (a : AgentId) : Sheds s (s.dropPending k a) where
  lists _ := rfl
  windows _ := rfl
  subject j := by
    rw [dropPending_slot]
    split
    · next hj => rw [hj]
    · rfl
  pending j b hb := by
    rw [dropPending_slot]
    split
    · next hj =>
      subst hj
      rw [hasAgent_dropAgent, hb, Bool.false_and]
    · exact hb
  others j hj := by
    rw [dropPending_slot, if_neg]
    rintro rfl
    exact h hj

/-- At one window the agent's answer is removed from the change in flight. -/
theorem leaveWindow_sheds {s : State} (a : AgentId) (w : WindowId) (h : SlotsNamed s) :
    Sheds s (s.leaveWindow a w) ∧
      ∀ k, (s.window w).slot = some k → hasAgent ((s.leaveWindow a w).slot k).pending a = false := by
  have hdrop := dropHolder_sheds s w a
  have hnamed := hdrop.named h
  unfold State.leaveWindow
  dsimp only
  rw [← hdrop.windows w]
  generalize s.dropHolder w a = t at hdrop hnamed
  cases hslot : (t.window w).slot with
  | none => exact ⟨hdrop, nofun⟩
  | some k =>
    dsimp only
    split
    · refine ⟨hdrop.trans (dropPending_sheds (hnamed w k hslot) a), fun j hj => ?_⟩
      cases hj
      rw [dropPending_slot, if_pos rfl, hasAgent_dropAgent]
      simp
    · next hnot =>
      refine ⟨hdrop, fun j hj => ?_⟩
      cases hj
      simpa using hnot

theorem leaveHoldings_sheds {s : State} (c : ContextId) (a : AgentId) (h : SlotsNamed s) :
    Sheds s (s.leaveHoldings c a) :=
  Sheds.foldl (fun _ w hs => (leaveWindow_sheds a w hs).1) _ s h

/-- After steps 1 and 2 of a LEAVE's completion no change of a window of its context waits for the agent. -/
theorem leaveHoldings_done {s : State} (c : ContextId) (a : AgentId) (h : SlotsNamed s) :
    (s.leaveHoldings c a).LeaveDone c a := by
  have hfold : ∀ (l : List WindowId) (t : State), SlotsNamed t → ∀ w ∈ l, ∀ k,
      (t.window w).slot = some k →
      hasAgent ((l.foldl (fun s w => s.leaveWindow a w) t).slot k).pending a = false := by
    intro l
    induction l with
    | nil => exact fun _ _ _ hw => nomatch hw
    | cons v l ih =>
      intro t ht w hw k hk
      obtain ⟨hsheds, hgone⟩ := leaveWindow_sheds a v ht
      have hnamed := hsheds.named ht
      rcases List.mem_cons.mp hw with rfl | hw
      · exact (Sheds.foldl (fun _ w hs => (leaveWindow_sheds a w hs).1) l _ hnamed).pending k a (hgone k hk)
      · exact ih _ hnamed w hw k ((hsheds.windows w).trans hk)
  have hsheds := leaveHoldings_sheds c a h
  intro w hw k hk
  rw [hsheds.lists c] at hw
  rw [hsheds.windows w] at hk
  exact hfold _ s h w hw k hk

theorem leaveFirst_sheds {s : State} (k : SlotId) (h : SlotsNamed s) : Sheds s (s.leaveFirst k) := by
  unfold State.leaveFirst
  split
  · split
    · exact leaveHoldings_sheds _ _ h
    all_goals exact Sheds.refl s
  · exact Sheds.refl s

theorem leaveFirst_done {s : State} {k : SlotId} {c : ContextId} {a : AgentId} (h : SlotsNamed s)
    (hk : s.Emptied k) (hsubject : (s.slot k).subject = .leave c a) : (s.leaveFirst k).LeaveDone c a := by
  have heq : s.leaveFirst k = s.leaveHoldings c a := by
    simp only [State.leaveFirst, if_pos hk, hsubject]
  rw [heq]
  exact leaveHoldings_done c a h

/-- When every slot has had its turn, each LEAVE that is emptied has made its removals. -/
theorem foldl_leaveFirst_done {s : State} (h : SlotsNamed s) {k : SlotId} {c : ContextId} {a : AgentId}
    (hk : (allSlots.foldl State.leaveFirst s).Emptied k)
    (hsubject : ((allSlots.foldl State.leaveFirst s).slot k).subject = .leave c a) :
    (allSlots.foldl State.leaveFirst s).LeaveDone c a := by
  have hfold : ∀ (l : List SlotId) (t : State), SlotsNamed t → k ∈ l →
      (l.foldl State.leaveFirst t).Emptied k →
      ((l.foldl State.leaveFirst t).slot k).subject = .leave c a →
      (l.foldl State.leaveFirst t).LeaveDone c a := by
    intro l
    induction l with
    | nil => exact fun _ _ hm => nomatch hm
    | cons j l ih =>
      intro t ht hm hk hsubject
      have hfirst := leaveFirst_sheds j ht
      have hrest := Sheds.foldl (fun _ k hs => leaveFirst_sheds k hs) l _ (hfirst.named ht)
      rcases List.mem_cons.mp hm with rfl | hm
      · have hall := hfirst.trans hrest
        have hleave : (t.slot k).subject = .leave c a := (hall.subject k).symm.trans hsubject
        have hslot : ((k :: l).foldl State.leaveFirst t).slot k = t.slot k :=
          hall.others k (by rw [hleave]; rfl)
        rw [State.Emptied, hslot] at hk
        exact hrest.leaveDone (leaveFirst_done ht hk hleave)
      · exact ih _ (hfirst.named ht) hm hk hsubject
  exact hfold allSlots s h (List.mem_finRange k) hk hsubject

/-! ## The completions -/

/-- From `s` to `t` no slot changed, and no window came to a context or to a slot. -/
structure Shrinks (s t : State) : Prop where
  slots : ∀ k, t.slot k = s.slot k
  lists : ∀ c w, w ∈ t.windowList c → w ∈ s.windowList c
  windows : ∀ w k, (t.window w).slot = some k → (s.window w).slot = some k

namespace Shrinks

variable {s t u : State}

theorem refl (s : State) : Shrinks s s := ⟨fun _ => rfl, fun _ _ h => h, fun _ _ h => h⟩

theorem trans (h : Shrinks s t) (h' : Shrinks t u) : Shrinks s u where
  slots k := (h'.slots k).trans (h.slots k)
  lists c w hw := h.lists c w (h'.lists c w hw)
  windows w k hk := h.windows w k (h'.windows w k hk)

theorem foldl {β : Type} {op : State → β → State} (l : List β) (s : State)
    (hop : ∀ t, ∀ b ∈ l, Shrinks s t → Shrinks t (op t b)) : Shrinks s (l.foldl op s) := by
  have hgen : ∀ t, Shrinks s t → Shrinks s (l.foldl op t) := by
    induction l with
    | nil => exact fun _ h => h
    | cons b l ih =>
      exact fun t ht => ih (fun t b hb => hop t b (List.mem_cons_of_mem _ hb)) _
        (ht.trans (hop t b List.mem_cons_self ht))
  exact hgen s (refl s)

theorem leaveDone (h : Shrinks s t) {c : ContextId} {a : AgentId} (hs : s.LeaveDone c a) :
    t.LeaveDone c a := fun w hw k hk => by
  rw [h.slots k]
  exact hs w (h.lists c w hw) k (h.windows w k hk)

end Shrinks

theorem dropHolder_shrinks (s : State) (w : WindowId) (a : AgentId) : Shrinks s (s.dropHolder w a) where
  slots := dropHolder_slot s w a
  lists c v hv := by rwa [dropHolder_windowList] at hv
  windows v k hk := by rwa [dropHolder_window_slot] at hk

/-- A window that loses its slot. -/
theorem setWindow_shrinks (s : State) (w : WindowId) {r : Window} (h : r.slot = none) :
    Shrinks s (s.setWindow w r) where
  slots _ := rfl
  lists _ _ h := h
  windows v k hk := by
    rw [State.setWindow_window] at hk
    split at hk
    · rw [h] at hk
      cases hk
    · exact hk

theorem setWindowList_shrinks {s : State} {c : ContextId} {l : List WindowId}
    (h : ∀ w ∈ l, w ∈ s.windowList c) : Shrinks s (s.setWindowList c l) where
  slots _ := rfl
  lists b w hw := by
    rw [State.setWindowList_windowList] at hw
    split at hw
    · next hb => rw [hb]; exact h w hw
    · exact hw
  windows _ _ h := h

theorem setContext_shrinks (s : State) (c : ContextId) (r : Context) : Shrinks s (s.setContext c r) :=
  ⟨fun _ => rfl, fun _ _ h => h, fun _ _ h => h⟩

theorem freeRecord_shrinks (s : State) (w : WindowId) : Shrinks s (s.freeRecord w) := by
  have h : Shrinks s (s.setWindow w _) := setWindow_shrinks s w (r := { s.window w with
    state := .free, context := 0, localBase := 0, length := 0, slot := none, poisoned := false }) rfl
  exact ⟨h.slots, h.lists, h.windows⟩

theorem applyClose_shrinks (s : State) (c : ContextId) : Shrinks s (s.applyClose c) := by
  have hfold : Shrinks s ((s.windowList c).foldl
      (fun s w => (s.dropHolders w (s.window w).holders).freeRecord w) s) :=
    Shrinks.foldl _ s fun t w _ _ =>
      (Shrinks.foldl (op := fun s a => s.dropHolder w a) _ t fun t a _ _ => dropHolder_shrinks t w a).trans
        (freeRecord_shrinks _ w)
  unfold State.applyClose
  exact (hfold.trans (setWindowList_shrinks fun _ hw => absurd hw List.not_mem_nil)).trans (setContext_shrinks _ _ _)

theorem leaveHoldings_shrinks {s : State} {c : ContextId} {a : AgentId} (h : s.LeaveDone c a) :
    Shrinks s (s.leaveHoldings c a) := by
  refine Shrinks.foldl _ s fun t w hw ht => ?_
  have hdrop := dropHolder_shrinks t w a
  have hdone := (ht.trans hdrop).leaveDone h
  unfold State.leaveWindow
  dsimp only
  split
  · next k hk =>
    have hgone : hasAgent ((t.dropHolder w a).slot k).pending a = false := by
      rw [hdrop.slots k, ht.slots k]
      exact h w hw k ((ht.trans hdrop).windows w k hk)
    rw [if_neg (by simp [hgone])]
    exact hdrop
  · exact hdrop

/-- The effects of a change empty no other; those of a LEAVE, when its removals are made. -/
theorem changeEffect_shrinks {s : State} {z : ChangeSubject} (v : NewValues)
    (h : ∀ c a, z = .leave c a → s.LeaveDone c a) : Shrinks s (s.changeEffect z v) := by
  cases z with
  | modify w =>
    have hset : Shrinks s (s.setWindow w _) := setWindow_shrinks s w (r := { s.window w with
      state := .live, length := v.length, version := (s.window w).version + 1, slot := none,
      poisoned := false }) rfl
    exact ⟨hset.slots, hset.lists, hset.windows⟩
  | retire w =>
    refine Shrinks.trans ?_ (freeRecord_shrinks _ w)
    exact (setWindowList_shrinks fun v hv => List.mem_of_mem_erase hv).trans (setContext_shrinks _ _ _)
  | close c => exact applyClose_shrinks s c
  | leave c a => exact (leaveHoldings_shrinks (h c a rfl)).trans (setContext_shrinks _ _ _)

theorem movePark_shrinks (s : State) (w : WindowId) : Shrinks s (s.movePark w) := by
  have hfold : Shrinks s ((s.parkOrder w).foldl
      (fun s e => s.setEntry e { s.entry e with state := .replay }) s) :=
    Shrinks.foldl _ s fun _ _ _ _ => ⟨fun _ => rfl, fun _ _ h => h, fun _ _ h => h⟩
  exact ⟨hfold.slots, hfold.lists, hfold.windows⟩

theorem moveParkOf_shrinks (s : State) (z : ChangeSubject) : Shrinks s (s.moveParkOf z) := by
  unfold State.moveParkOf
  split
  · exact movePark_shrinks s _
  · exact Shrinks.refl s

/-- Every LEAVE that is emptied has made its removals. -/
def LeavesDone (s : State) : Prop :=
  ∀ k c a, s.Emptied k → (s.slot k).subject = .leave c a → s.LeaveDone c a

/-- The completion of a slot frees it and empties no other. -/
theorem completeSlot_emptied {s : State} (h : LeavesDone s) {k : SlotId} (hk : s.Emptied k) :
    LeavesDone (s.completeSlot k).1 ∧
      ∀ j, (s.completeSlot k).1.Emptied j ↔ j ≠ k ∧ s.Emptied j := by
  have hshrinks := (changeEffect_shrinks (s.slot k).newValues fun c a => h k c a hk).trans
    (moveParkOf_shrinks _ (s.slot k).subject)
  have hslot : ∀ j, (s.completeSlot k).1.slot j
      = if j = k then { s.slot k with state := .free } else s.slot j := fun j => by
    rw [State.completeSlot, State.setSlot_slot, hshrinks.slots, hshrinks.slots]
  have hiff : ∀ j, (s.completeSlot k).1.Emptied j ↔ j ≠ k ∧ s.Emptied j := fun j => by
    rw [State.Emptied, hslot]
    by_cases hj : j = k <;> simp [hj]
  refine ⟨fun j c a hj hsubject w hw i hi => ?_, hiff⟩
  obtain ⟨hjk, hj⟩ := (hiff j).mp hj
  rw [hslot, if_neg hjk] at hsubject
  have hgone := h j c a hj hsubject w (hshrinks.lists c w hw) i (hshrinks.windows w i hi)
  rw [hslot]
  split
  · next hik => exact hik ▸ hgone
  · exact hgone

theorem foldl_completeIfEmptied (l : List SlotId) (x : State × List Completion) (h : LeavesDone x.1)
    (k : SlotId) (hk : (l.foldl completeIfEmptied x).1.Emptied k) : k ∉ l ∧ x.1.Emptied k := by
  induction l generalizing x with
  | nil => exact ⟨List.not_mem_nil, hk⟩
  | cons j l ih =>
    have hstep : LeavesDone (completeIfEmptied x j).1 ∧
        ∀ i, (completeIfEmptied x j).1.Emptied i → i ≠ j ∧ x.1.Emptied i := by
      unfold completeIfEmptied
      split
      · next hj => exact ⟨(completeSlot_emptied h hj).1, fun i => ((completeSlot_emptied h hj).2 i).mp⟩
      · next hj => exact ⟨h, fun i hi => ⟨fun he => hj (he ▸ hi), hi⟩⟩
    obtain ⟨hmem, hemptied⟩ := ih _ hstep.1 hk
    obtain ⟨hne, hx⟩ := hstep.2 k hemptied
    exact ⟨by simp [hne, hmem], hx⟩

/-- Settling leaves no change emptied. -/
theorem completeEmptied_not_emptied {s : State} (h : SlotsNamed s) (k : SlotId) :
    ¬ s.completeEmptied.1.Emptied k := by
  have hdone : LeavesDone (allSlots.foldl State.leaveFirst s) :=
    fun _ _ _ hj hsubject => foldl_leaveFirst_done h hj hsubject
  unfold State.completeEmptied
  generalize allSlots.foldl State.leaveFirst s = t at hdone ⊢
  exact fun hk => (foldl_completeIfEmptied allSlots (t, []) hdone k hk).1 (List.mem_finRange k)

theorem settle_slots (s : State) (kept : Option AgentId) (late : Bool) :
    (s.settle kept late).slots = s.completeEmptied.1.slots := by
  have hpost : ∀ (t : State) (cs : List Completion), (t.clearFences.postAll cs).slots = t.slots :=
    fun t cs => by rw [postAll_eq]; rfl
  exact (hpost _ _).trans (endPurges_slots _ kept)

theorem settle_not_emptied {s : State} (h : SlotsNamed s) (kept : Option AgentId) (late : Bool)
    (k : SlotId) : ¬ (s.settle kept late).Emptied k := by
  have hslot : (s.settle kept late).slot k = s.completeEmptied.1.slot k := by
    rw [State.slot_eq, settle_slots, State.slot_eq]
  rw [State.Emptied, hslot]
  exact completeEmptied_not_emptied h k

end Sys2Proof.Machine
end

section
/-! SUPPORT. What is left of a purge that does not end in its claim, and the start of a purge (R101). -/

namespace Sys2Proof.Machine

/-! ## A purge that does not end -/

theorem foldl_endPurge_agent (kept : Option AgentId) {a : AgentId} (l : List AgentId) (h : a ∉ l)
    (s : State) : (l.foldl (fun s b => s.endPurge kept b) s).agent a = s.agent a := by
  induction l generalizing s with
  | nil => rfl
  | cons b l ih =>
    obtain ⟨hb, hl⟩ := not_or.mp (mt List.mem_cons.mpr h)
    rw [List.foldl_cons, ih hl, endPurge_agent_of_ne s kept hb]

/-- The state an agent takes when its purge ends (R36). -/
def PurgeTarget.reached : PurgeTarget → AgentState
  | .active => .active
  | .absent => .absent
  | .fenced => .fenced

theorem reachTarget_state {s : State} (kept : Option AgentId) {a : AgentId} {target : PurgeTarget}
    (h : (s.agent a).target = some target) :
    ((s.reachTarget kept a).agent a).state = target.reached := by
  have hset : ∀ r : Agent, ((s.setAgent a r).agent a).state = r.state :=
    fun r => by rw [State.setAgent_agent, if_pos rfl]
  cases target with
  | active =>
    cases hroom : s.welcomePort kept a with
    | none =>
      rw [reachTarget_owed h hroom]
      exact hset _
    | some q =>
      rw [reachTarget_placed h hroom, place_agent]
      exact hset _
  | absent =>
    simp only [State.reachTarget, h]
    exact hset _
  | fenced =>
    simp only [State.reachTarget, h]
    exact hset _

theorem reached_ne_purging (target : PurgeTarget) : target.reached ≠ .purging := by
  cases target <;> exact nofun

/-- An agent with a target that is PURGING yet when the purges have ended holds something. -/
theorem endPurges_held {s : State} (kept : Option AgentId) {a : AgentId}
    (h : (s.agent a).state = .purging → (s.agent a).target ≠ none)
    (hp : ((s.endPurges kept).agent a).state = .purging) : ((s.endPurges kept).agent a).held ≠ 0 := by
  obtain ⟨before, after, hl⟩ : ∃ before after, allAgents = before ++ a :: after :=
    List.append_of_mem (List.mem_finRange a)
  have hnodup : (before ++ a :: after).Nodup := hl ▸ List.nodup_finRange 32
  have hbefore : a ∉ before := fun hm =>
    (List.nodup_append.mp hnodup).2.2 a hm a List.mem_cons_self rfl
  have hafter : a ∉ after := (List.nodup_cons.mp (List.nodup_append.mp hnodup).2.1).1
  unfold State.endPurges at hp ⊢
  rw [hl, List.foldl_append, List.foldl_cons, foldl_endPurge_agent kept after hafter] at hp ⊢
  have hagent := foldl_endPurge_agent kept before hbefore s
  generalize before.foldl (fun s b => s.endPurge kept b) s = t at hp hagent ⊢
  by_cases hover : t.PurgeIsOver a
  · rw [endPurge_over hover] at hp
    obtain ⟨target, ht⟩ := Option.ne_none_iff_exists'.mp (h (hagent ▸ hover.1))
    exact absurd ((reachTarget_state kept (hagent ▸ ht)).symm.trans hp) (reached_ne_purging target)
  · rw [endPurge_not_over hover] at hp ⊢
    exact fun h0 => hover ⟨hp, h0⟩

theorem settle_agent (s : State) (kept : Option AgentId) (late : Bool) (a : AgentId) :
    (s.settle kept late).agent a = (s.completeEmptied.1.endPurges kept).agent a := by
  have hpost : ∀ (t : State) (cs : List Completion), (t.clearFences.postAll cs).agent a = t.agent a :=
    fun t cs => by rw [postAll_eq]; rfl
  exact hpost _ _

/-! ## A change applied at once finds no holder -/

/-- The windows a change would take from their holders have none. -/
def State.HoldsNothing (s : State) : ChangeSubject → Prop
  | .modify _ => True
  | .retire _ => True
  | .close c => ∀ w ∈ s.windowList c, (s.window w).holders = 0
  | .leave c a => ∀ w ∈ s.windowList c, hasAgent (s.window w).holders a = false

theorem judgeClose_immediate {s : State} {r : CmdRecord} {z : ChangeSubject} {v : NewValues}
    (h : judgeClose s r = .immediate z v) : s.HoldsNothing z := by
  unfold judgeClose at h
  split at h
  · cases h
  split_ifs at h with _ _ _ hnone
  cases h
  simpa [State.HoldsNothing, State.noHolders] using hnone

theorem judgeLeave_immediate {s : State} {r : CmdRecord} {z : ChangeSubject} {v : NewValues}
    (h : judgeLeave s r = .immediate z v) : s.HoldsNothing z := by
  unfold judgeLeave at h
  split at h
  · cases h
  split_ifs at h with _ _ _ _ hholds
  cases h
  simpa [State.HoldsNothing, State.holdsIn] using hholds

theorem judgeModify_immediate {s : State} {r : CmdRecord} {z : ChangeSubject} {v : NewValues}
    (h : judgeModify s r = .immediate z v) : s.HoldsNothing z := by
  unfold judgeModify at h
  split at h
  · split at h
    · split at h
      · cases h
      · split_ifs at h
        cases h
        trivial
    · cases h
  · cases h

theorem judgeRetire_immediate {s : State} {r : CmdRecord} {z : ChangeSubject} {v : NewValues}
    (h : judgeRetire s r = .immediate z v) : s.HoldsNothing z := by
  unfold judgeRetire at h
  split at h
  · cases h
  · split at h
    · cases h
    · split_ifs at h
      cases h
      trivial

theorem judgeChange_immediate {s : State} {r : CmdRecord} {z : ChangeSubject} {v : NewValues}
    (h : judgeChange s r = .immediate z v) : s.HoldsNothing z := by
  unfold judgeChange at h
  split at h
  · exact judgeClose_immediate h
  · exact judgeLeave_immediate h
  · exact judgeModify_immediate h
  · exact judgeRetire_immediate h
  · cases h

theorem freeRecord_holders (s : State) (w v : WindowId) :
    ((s.freeRecord w).window v).holders = (s.window v).holders := by
  show ((s.setWindow w _).window v).holders = _
  rw [State.setWindow_window]
  split
  · next hv => rw [hv]
  · rfl

theorem dropHolders_zero (s : State) (w : WindowId) : s.dropHolders w 0 = s := by
  have hnone : agentsOf 0 = [] :=
    List.eq_nil_iff_forall_not_mem.mpr fun a ha => by
      rw [mem_agentsOf, hasAgent_zero] at ha
      cases ha
  rw [State.dropHolders, hnone]
  rfl

theorem applyClose_agents {s : State} {c : ContextId} (h : s.HoldsNothing (.close c)) :
    (s.applyClose c).agents = s.agents := by
  have hfold : ∀ (l : List WindowId) (t : State), (∀ w ∈ l, (t.window w).holders = 0) →
      (l.foldl (fun s w => (s.dropHolders w (s.window w).holders).freeRecord w) t).agents = t.agents := by
    intro l
    induction l with
    | nil => exact fun _ _ => rfl
    | cons w l ih =>
      intro t ht
      rw [List.foldl_cons, ht w List.mem_cons_self, dropHolders_zero, ih]
      · rfl
      · exact fun v hv => (freeRecord_holders t w v).trans (ht v (List.mem_cons_of_mem _ hv))
  exact hfold _ s h

theorem leaveHoldings_agents {s : State} {c : ContextId} {a : AgentId} (h : s.HoldsNothing (.leave c a)) :
    (s.leaveHoldings c a).agents = s.agents := by
  have hfold : ∀ (l : List WindowId) (t : State), (∀ w ∈ l, hasAgent (t.window w).holders a = false) →
      (l.foldl (fun s w => s.leaveWindow a w) t).agents = t.agents := by
    intro l
    induction l with
    | nil => exact fun _ _ => rfl
    | cons w l ih =>
      intro t ht
      have hwindow : (t.leaveWindow a w).agents = t.agents ∧
          ∀ v, (t.leaveWindow a w).window v = t.window v := by
        unfold State.leaveWindow
        rw [dropHolder_of_no_holder (ht w List.mem_cons_self)]
        dsimp only
        split
        · split <;> exact ⟨rfl, fun _ => rfl⟩
        · exact ⟨rfl, fun _ => rfl⟩
      rw [List.foldl_cons, ih _ fun v hv => by rw [hwindow.2]; exact ht v (List.mem_cons_of_mem _ hv)]
      exact hwindow.1
  exact hfold _ s h

/-- A change that finds no holder changes no agent record. -/
theorem changeEffect_agents {s : State} {z : ChangeSubject} (v : NewValues) (h : s.HoldsNothing z) :
    (s.changeEffect z v).agents = s.agents := by
  cases z with
  | modify w => rfl
  | retire w => rfl
  | close c => exact applyClose_agents h
  | leave c a => exact leaveHoldings_agents h

theorem applyNow_agents {s : State} (r : CmdRecord) {z : ChangeSubject} (v : NewValues)
    (h : s.HoldsNothing z) : (s.takeCommand.applyNow r z v).agents = s.agents := by
  have htake : s.takeCommand.HoldsNothing z := by cases z <;> exact h
  exact changeEffect_agents v htake

/-! ## The start of a purge -/

theorem releaseEntry_only_pool (s : State) (e : EntryId) :
    s.releaseEntry e = { s with pool := (s.releaseEntry e).pool, parkOrders := (s.releaseEntry e).parkOrders,
                                replayList := (s.releaseEntry e).replayList } := by
  unfold State.releaseEntry
  dsimp only
  split <;> rfl

theorem dropEntries_only_pool (s : State) (pick : PoolEntry → Bool) :
    ∃ pool parkOrders replayList, s.dropEntries pick
      = { s with pool := pool, parkOrders := parkOrders, replayList := replayList } := by
  refine foldl_invariant (fun t : State => ∃ pool parkOrders replayList,
    t = { s with pool := pool, parkOrders := parkOrders, replayList := replayList }) _
    (fun t e ht => ?_) allEntries s ⟨_, _, _, rfl⟩
  obtain ⟨pool, parkOrders, replayList, ht⟩ := ht
  split
  · rw [releaseEntry_only_pool, ht]
    exact ⟨_, _, _, rfl⟩
  · exact ⟨pool, parkOrders, replayList, ht⟩

theorem dropAnswer_window_slot (s : State) (k : SlotId) (a : AgentId) (w : WindowId) :
    ((s.dropAnswer k a).window w).slot = (s.window w).slot := by
  unfold State.dropAnswer
  split
  · exact dropHolder_window_slot _ _ _ _
  · rfl

theorem dropAnswer_subject (s : State) (k : SlotId) (a : AgentId) (j : SlotId) :
    ((s.dropAnswer k a).slot j).subject = (s.slot j).subject := by
  have hpending : ((s.dropPending k a).slot j).subject = (s.slot j).subject := by
    rw [dropPending_slot]
    split
    · next hj => rw [hj]
    · rfl
  unfold State.dropAnswer
  split
  · rw [dropHolder_slot]
    exact hpending
  · exact hpending

theorem quitSlot_slotsNamed {s : State} (a : AgentId) (k : SlotId) (h : SlotsNamed s) :
    SlotsNamed (s.quitSlot a k) := by
  unfold State.quitSlot
  split
  · intro w j hj
    rw [dropAnswer_window_slot] at hj
    rw [dropAnswer_subject]
    exact h w j hj
  · exact h

/-- The agent leaves each change it is pending in (R101, step 3). -/
def State.quitSlots (s : State) (a : AgentId) : State := allSlots.foldl (fun s k => s.quitSlot a k) s

theorem quitSlots_slotsNamed {s : State} (a : AgentId) (h : SlotsNamed s) : SlotsNamed (s.quitSlots a) :=
  foldl_invariant SlotsNamed _ (fun _ k ht => quitSlot_slotsNamed a k ht) allSlots s h

theorem quitSlots_uniform (a : AgentId) : Uniform (·.quitSlots a) :=
  fun _ _ _ _ _ hR h => foldl_related allSlots (fun k _ _ _ h => h.quitSlot hR a k) h

/-- A purge start toward another target than FENCED: the agent's new record, its requests dropped, and then
the changes it leaves. -/
theorem purgeStart_eq {s : State} {a : AgentId} {target : PurgeTarget} (h : target ≠ .fenced) :
    ∃ t : State, s.purgeStart a target
        = { t.quitSlots a with purgeSet := addAgent (t.quitSlots a).purgeSet a } ∧
      t.windows = s.windows ∧ t.slots = s.slots ∧ t.ports = s.ports ∧
      t.agents = (s.setAgent a { s.agent a with
        state := .purging, target := some target, welcomeOwed := decide (target = .active) }).agents := by
  obtain ⟨pool, parkOrders, replayList, hpool⟩ := dropEntries_only_pool (s.setAgent a { s.agent a with
    state := .purging, target := some target, welcomeOwed := decide (target = .active) })
    fun e => e.request.agent == a
  refine ⟨(s.setAgent a { s.agent a with
    state := .purging, target := some target, welcomeOwed := decide (target = .active) }).dropEntries
    fun e => e.request.agent == a, ?_, ?_⟩
  · unfold State.purgeStart
    dsimp only
    rw [if_neg h]
    rfl
  · rw [hpool]
    exact ⟨rfl, rfl, rfl, rfl⟩

theorem purgeStart_slotsNamed {s : State} {a : AgentId} {target : PurgeTarget} (ht : target ≠ .fenced)
    (h : SlotsNamed s) : SlotsNamed (s.purgeStart a target) := by
  obtain ⟨t, heq, hwindows, hslots, -⟩ := purgeStart_eq (s := s) (a := a) ht
  have ht : SlotsNamed t := fun w k hk => by
    rw [State.window_eq, hwindows] at hk
    rw [State.slot_eq, hslots]
    exact h w k hk
  have hquit := quitSlots_slotsNamed a ht
  rw [heq]
  generalize t.quitSlots a = u at hquit ⊢
  exact hquit

/-- `s` with agent `a` PURGING toward `target`, and in the purge set. -/
def State.purgeBegun (s : State) (a : AgentId) (target : PurgeTarget) : State :=
  { s.setAgent a { s.agent a with
      state := .purging, target := some target, welcomeOwed := decide (target = .active) } with
    purgeSet := addAgent s.purgeSet a }

theorem purgeBegun_agent (s : State) (a : AgentId) (target : PurgeTarget) (b : AgentId) :
    (s.purgeBegun a target).agent b = if b = a then { s.agent a with
      state := .purging, target := some target, welcomeOwed := decide (target = .active) }
      else s.agent b := by
  have hagents : (s.purgeBegun a target).agents = (s.setAgent a { s.agent a with
      state := .purging, target := some target, welcomeOwed := decide (target = .active) }).agents := rfl
  rw [State.agent_eq, hagents]
  exact State.setAgent_agent s a b _

/-- A purge start takes no notice of an agent that is in no change and has no request parked. -/
theorem purgeStart_of_unencumbered {s : State} {a : AgentId} {target : PurgeTarget}
    (ht : target ≠ .fenced) (h : Unencumbered s a) : s.purgeStart a target = s.purgeBegun a target := by
  obtain ⟨hslots, hentries⟩ := h
  unfold State.purgeStart State.dropEntries
  dsimp only
  rw [if_neg ht, foldl_fixed (l := allEntries), foldl_fixed (l := allSlots)]
  · rfl
  · intro k _
    exact if_neg fun hk => by
      have hnot := hslots k hk.1
      rw [show hasAgent (s.slot k).pending a = true from hk.2] at hnot
      cases hnot
  · intro e _
    exact if_neg fun he => hentries e he.1 (by simpa using he.2)

/-- A HELLO claim of agent `a` on port `p`, from the state its message was taken from. -/
def helloClaim (s : State) (p : PortId) (a : AgentId) : HelloClaim :=
  ⟨p, a, (s.port p).outbound, fun c => (s.agent c).port⟩

/-- Where the purge of a HELLO's agent starts, its WELCOME is owed and has a place (R33). -/
theorem purgeStart_alone {s : State} {p : PortId} {a : AgentId} (hroom : s.HasRoom p)
    (hport : (s.agent a).port = some p) :
    (helloClaim s p a).Alone false (s.purgeStart a .active) := by
  obtain ⟨t, heq, -, -, hports, hagents⟩ :=
    purgeStart_eq (s := s) (a := a) (target := .active) nofun
  have hagent : ∀ c, t.agent c = (s.setAgent a { s.agent a with
      state := .purging, target := some .active, welcomeOwed := true }).agent c := fun c => by
    rw [State.agent_eq, hagents]
    rfl
  have hqueue : t.port p = s.port p := by rw [State.port_eq, hports, State.port_eq]
  have ht : (helloClaim s p a).Alone false t := by
    refine ⟨fun c => ?_, ?_⟩
    · rw [hagent, State.setAgent_agent]
      split
      · next hc =>
        subst hc
        exact ⟨fun q hq => hq, fun _ => ⟨hport, rfl, fun _ => ⟨rfl, rfl⟩, nofun⟩⟩
      · next hc => exact ⟨fun q hq => hq, fun he => absurd he hc⟩
    · show (helloClaim s p a).Queued false (t.port p)
      rw [hqueue]
      exact ⟨hroom.1, ⟨[], by simp [helloClaim], by simp⟩, fun _ => hroom.2⟩
  have hquit : (helloClaim s p a).Alone false (t.quitSlots a) :=
    ht.map (f := (·.quitSlots a)) (quitSlots_uniform a)
  rw [heq]
  generalize t.quitSlots a = u at hquit ⊢
  exact ⟨hquit.agent, hquit.port⟩

/-! ## What the two runs of a HELLO claim come to -/

variable {h : HelloClaim} {named : Prop} {filled : Bool} {x y : State}

/-- The HELLO's agent, with its purge running in both runs: the WELCOME is owed, and not placed. -/
theorem HelloClaim.Course.waits (hc : h.Course named filled x y)
    (hp : (x.agent h.agent).state = .purging) :
    (x.agent h.agent).target = some .active ∧ (x.agent h.agent).port = some h.port ∧
      (x.agent h.agent).welcomeOwed = true ∧
      ∃ l, (x.port h.port).outbound = h.queue ++ l ∧ h.welcome ∉ l := by
  have running : ∀ {ended owed : Bool}, h.Own ended owed (x.agent h.agent) → ended = false :=
    fun {ended _} hown => by
      cases ended with
      | false => rfl
      | true => rw [(hown.active rfl).1] at hp; cases hp
  cases hc with
  | together ended alone same =>
    have hown := (alone.agent h.agent).own rfl
    obtain rfl := running hown
    obtain ⟨l, hl, hmem⟩ := alone.port.queue
    exact ⟨(hown.purging rfl).2, hown.port, hown.owed, l, hl, fun hw => by simpa using hmem.mp hw⟩
  | parted d m ended hd hp' =>
    have hown := ((hp'.alike.agent h.agent).own rfl).1
    obtain rfl := running hown
    obtain ⟨l, -, hmem, hx, -⟩ := hp'.alike.ports.last
    refine ⟨(hown.purging rfl).2, hown.port, hown.owed, l ++ [m], ?_, ?_⟩
    · rw [State.port_eq, hx, List.append_assoc]
    · simp only [List.mem_append, List.mem_singleton, not_or]
      exact ⟨hmem, hp'.other.symm⟩

/-- The HELLO's agent, with its purge ended: in the run that kept the place its WELCOME is placed. -/
theorem HelloClaim.Course.ends (hc : h.Course named filled x y)
    (hp : (x.agent h.agent).state ≠ .purging) :
    (y.agent h.agent).state = .active ∧ (y.agent h.agent).target = none ∧
      (y.agent h.agent).port = some h.port ∧ (y.agent h.agent).held = 0 ∧
      (y.agent h.agent).welcomeOwed = false ∧
      ∃ l, (y.port h.port).outbound = h.queue ++ l ∧ h.welcome ∈ l := by
  have finished : ∀ {ended owed : Bool}, h.Own ended owed (x.agent h.agent) → ended = true :=
    fun {ended _} hown => by
      cases ended with
      | false => exact absurd (hown.purging rfl).1 hp
      | true => rfl
  cases hc with
  | together ended alone same =>
    subst same
    have hown := (alone.agent h.agent).own rfl
    obtain rfl := finished hown
    obtain ⟨hstate, htarget, hheld⟩ := hown.active rfl
    obtain ⟨l, hl, hmem⟩ := alone.port.queue
    exact ⟨hstate, htarget, hown.port, hheld, hown.owed, l, hl, hmem.mpr rfl⟩
  | parted d m ended hd hp' =>
    obtain ⟨hown, howed⟩ := (hp'.alike.agent h.agent).own rfl
    obtain rfl := finished hown
    obtain ⟨hstate, htarget, hheld⟩ := hown.active rfl
    obtain ⟨l, -, -, -, hy⟩ := hp'.alike.ports.last
    rw [(hp'.alike.agent h.agent).owed]
    refine ⟨hstate, htarget, hown.port, hheld, howed, l ++ [h.welcome], ?_, by simp⟩
    rw [State.port_eq, hy]
    simp

/-- Its purge running when a claim settles, the HELLO's agent holds something. -/
theorem HelloClaim.Course.settle_held (hc : h.Course named filled x y) (late : Bool)
    (hp : ((x.settle none late).agent h.agent).state = .purging) :
    ((x.settle none late).agent h.agent).held ≠ 0 := by
  rw [settle_agent] at hp ⊢
  refine endPurges_held none (fun hpurging => ?_) hp
  rw [(hc.completeEmptied.waits hpurging).1]
  exact nofun

theorem HelloClaim.Course.carryOut_held (hc : h.Course named false x y)
    (hemptied : named → ∀ j, ¬ x.Emptied j) (late : Bool) (r : CmdRecord)
    (hheld : (x.agent h.agent).state = .purging → (x.agent h.agent).held ≠ 0)
    (hp : ((x.carryOut none late r (judgeChange x r)).agent h.agent).state = .purging) :
    ((x.carryOut none late r (judgeChange x r)).agent h.agent).held ≠ 0 := by
  cases hj : judgeChange x r with
  | refused status =>
    rw [hj] at hp
    exact hheld hp
  | immediate z v =>
    rw [hj] at hp
    have hagents := applyNow_agents r v (judgeChange_immediate hj)
    have hagent : (x.carryOut none late r (.immediate z v)).agent h.agent = x.agent h.agent := by
      show tableGet _ (x.takeCommand.applyNow r z v).agents _ = _
      rw [hagents]
      rfl
    rw [hagent] at hp ⊢
    exact hheld hp
  | needsSlot z v =>
    rw [hj] at hp
    unfold State.carryOut at hp ⊢
    dsimp only at hp ⊢
    cases hfree : x.freeSlot with
    | none =>
      rw [hfree] at hp
      exact hheld hp
    | some k =>
      rw [hfree] at hp
      have htake : h.Course named false x.takeCommand y.takeCommand :=
        hc.map (f := State.takeCommand) (uniform_of_overlay (fun _ _ _ _ => rfl) fun _ => ⟨rfl, rfl, rfl⟩)
          nofun
      exact (htake.fillSlot hemptied k z v _).settle_held late hp

theorem HelloClaim.Course.reconsider_held (hc : h.Course named false x y)
    (hemptied : named → ∀ j, ¬ x.Emptied j)
    (hheld : (x.agent h.agent).state = .purging → (x.agent h.agent).held ≠ 0)
    (hp : ((x.reconsider none).agent h.agent).state = .purging) :
    ((x.reconsider none).agent h.agent).held ≠ 0 := by
  unfold State.reconsider at hp ⊢
  split at hp
  · next hwait =>
    rw [if_pos hwait]
    split at hp
    · next r rest hq => simpa only [hq] using hc.carryOut_held hemptied true r hheld hp
    · next hq => simpa only [hq] using hheld hp
  · next hwait =>
    rw [if_neg hwait]
    exact hheld hp

end Sys2Proof.Machine
end

section
/-! SUPPORT. HELLO and GOODBYE (O20, O21): the claim by the state of the agent's record, and its end. -/

namespace Sys2Proof.Machine

/-! ## The message taken -/

theorem exec_hello_of_head {s : State} {p : PortId} {a : AgentId} {rest : List InMsg} (hs : Serving s)
    (hroom : s.HasRoom p) (hin : (s.port p).inbound = .hello a :: rest) :
    exec (.hello p) s = .next ((s.tookFrom p rest).takeHello p a) := by
  show Host.Outcome.next (s.whenServing _) = _
  rw [whenServing_of_serving hs, ← takeInbound_eq_tookFrom hin]
  simp only [inboundHead_of_cons hroom.1 hin, if_pos hroom]

theorem exec_goodbye_of_head {s : State} {p : PortId} {a : AgentId} {rest : List InMsg} (hs : Serving s)
    (hup : (s.port p).state = .up) (hin : (s.port p).inbound = .goodbye a :: rest) :
    exec (.goodbye p) s = .next ((s.tookFrom p rest).takeGoodbye p a) := by
  show Host.Outcome.next (s.whenServing _) = _
  rw [whenServing_of_serving hs, ← takeInbound_eq_tookFrom hin]
  simp only [inboundHead_of_cons hup hin]

theorem tookFrom_port (s : State) (p : PortId) (rest : List InMsg) (q : PortId) :
    (s.tookFrom p rest).port q = if q = p then { s.port p with
      inbound := rest, returnedOwed := (s.port p).returnedOwed + 1 } else s.port q :=
  State.setPort_port _ _ _ _

theorem tookFrom_hasRoom {s : State} {p : PortId} (rest : List InMsg) (h : s.HasRoom p) :
    (s.tookFrom p rest).HasRoom p := by
  rw [State.HasRoom, tookFrom_port, if_pos rfl]
  exact h

theorem place_eq_sent {s : State} {p : PortId} (h : s.HasRoom p) (m : OutMsg) :
    s.place p m = s.sent p m := place_of_room h m

theorem setAgent_place {s : State} {p : PortId} (h : s.HasRoom p) (a : AgentId) (r : Agent) (m : OutMsg) :
    (s.setAgent a r).place p m = (s.setAgent a r).sent p m := place_eq_sent (s := s.setAgent a r) h m

/-! ## HELLO by the agent's state (R33) -/

section
variable {s : State} {p : PortId} {a : AgentId}

theorem takeHello_of_absent (hroom : s.HasRoom p) (h : (s.agent a).state = .absent) :
    s.takeHello p a = (s.setAgent a { s.agent a with state := .active, port := some p }).sent p
      (.welcome a .accepted) := by
  rw [State.takeHello]
  dsimp only
  rw [if_pos h]
  exact setAgent_place hroom _ _ _

theorem takeHello_of_fenced (hroom : s.HasRoom p) (h : (s.agent a).state = .fenced)
    (hport : (s.agent a).port = none ∨ (s.agent a).port = some p) :
    s.takeHello p a = (s.setAgent a { s.agent a with port := some p, fenceOwed := false }).sent p
      (.welcome a .fenced) := by
  rw [State.takeHello]
  dsimp only
  rw [if_neg (by rw [h]; exact nofun)]
  rcases hport with hport | hport
  · rw [if_pos ⟨h, hport⟩]
    exact setAgent_place hroom _ _ _
  · rw [if_neg (by rw [hport]; exact nofun), if_neg (not_not_intro hport),
      if_neg (by rw [h]; exact nofun), if_pos h]
    exact setAgent_place hroom _ _ _

theorem takeHello_of_bound_elsewhere (hroom : s.HasRoom p) (h : (s.agent a).state ≠ .absent)
    {q : PortId} (hport : (s.agent a).port = some q) (hq : q ≠ p) :
    s.takeHello p a = s.sent p (.welcome a .duplicate) := by
  rw [State.takeHello]
  dsimp only
  rw [if_neg h, if_neg (by rw [hport]; exact nofun),
    if_pos (by rw [hport]; exact fun he => hq (Option.some.inj he))]
  exact place_eq_sent hroom _

theorem takeHello_of_active (h : (s.agent a).state = .active) (hport : (s.agent a).port = some p) :
    s.takeHello p a = (s.purgeStart a .active).finish (some a) := by
  rw [State.takeHello]
  dsimp only
  rw [if_neg (by rw [h]; exact nofun), if_neg (by rw [h]; exact nofun), if_neg (not_not_intro hport),
    if_pos h]

/-- The rows of a PURGING agent bound here differ by its target. -/
theorem takeHello_of_purging (h : (s.agent a).state = .purging) (hport : (s.agent a).port = some p) :
    s.takeHello p a =
      if (s.agent a).target = some .fenced then
        (s.setAgent a { s.agent a with port := some p, fenceOwed := false }).place p (.welcome a .fenced)
      else if (s.agent a).target = some .absent then
        s.setAgent a { s.agent a with target := some .active, welcomeOwed := true }
      else s := by
  rw [State.takeHello]
  dsimp only
  rw [if_neg (by rw [h]; exact nofun), if_neg (by rw [h]; exact nofun), if_neg (not_not_intro hport),
    if_neg (by rw [h]; exact nofun), if_neg (by rw [h]; exact nofun)]

theorem takeHello_of_purging_fenced (hroom : s.HasRoom p) (h : (s.agent a).state = .purging)
    (hport : (s.agent a).port = some p) (ht : (s.agent a).target = some .fenced) :
    s.takeHello p a
      = (s.setAgent a { s.agent a with fenceOwed := false }).sent p (.welcome a .fenced) := by
  rw [takeHello_of_purging h hport, if_pos ht, ← hport, setAgent_place hroom]

theorem takeHello_of_purging_absent (h : (s.agent a).state = .purging)
    (hport : (s.agent a).port = some p) (ht : (s.agent a).target = some .absent) :
    s.takeHello p a = s.setAgent a { s.agent a with target := some .active, welcomeOwed := true } := by
  rw [takeHello_of_purging h hport, if_neg (by rw [ht]; exact nofun), if_pos ht]

theorem takeHello_of_purging_active (h : (s.agent a).state = .purging)
    (hport : (s.agent a).port = some p) (ht : (s.agent a).target = some .active) :
    s.takeHello p a = s := by
  rw [takeHello_of_purging h hport, if_neg (by rw [ht]; exact nofun), if_neg (by rw [ht]; exact nofun)]

end

/-! ## The end of a claim in which one purge may end -/

/-- What one agent's record may become in a claim that leaves nothing else over. -/
theorem settled_of_agent {s t : State} {a : AgentId} (hs : Settled s) (hslots : t.slots = s.slots)
    (hengine : t.engine = s.engine) (hothers : ∀ b, b ≠ a → t.agent b = s.agent b)
    (hfenced : (t.agent a).state ≠ .fenced)
    (hheld : (t.agent a).state = .purging → (t.agent a).held ≠ 0) : Settled t := by
  obtain ⟨hemptied, hpurging, hfence, hwait⟩ := hs
  have hslot : ∀ k, t.slot k = s.slot k := fun k => by rw [State.slot_eq, hslots, State.slot_eq]
  refine ⟨fun k => ?_, fun b hb => ?_, fun f hf => ?_, fun hw => ?_⟩
  · rw [State.Emptied, hslot]
    exact hemptied k
  · by_cases hba : b = a
    · subst hba
      exact hheld hb
    · rw [hothers b hba] at hb ⊢
      exact hpurging b hb
  · have hlist : t.fenceWait = s.fenceWait := congrArg Engine.fenceWait hengine
    by_cases hfa : f.agent = a
    · rw [hfa]
      exact hfenced
    · rw [hothers _ hfa]
      exact hfence f (hlist ▸ hf)
  · rw [freeSlot_congr (s := s) fun k => by rw [hslot]]
    exact hwait (slotWait_of_engine hengine ▸ hw)

theorem reconsider_of_settled {s : State} (hs : Settled s) (kept : Option AgentId) :
    s.reconsider kept = s := by
  obtain ⟨-, -, -, hwait⟩ := hs
  refine if_neg fun ⟨hw, hfree⟩ => ?_
  rw [hwait hw] at hfree
  cases hfree

theorem post_nothing {s : State} (h : ∀ f ∈ s.fenceWait, (s.agent f.agent).state ≠ .fenced) :
    s.clearFences.postAll (s.fencesDone.map s.fenceRecord) = s := by
  have hdone : s.fencesDone = [] := List.filter_eq_nil_iff.mpr fun f hf => by simpa using h f hf
  have hkept : (s.fenceWait.filter fun f => decide ((s.agent f.agent).state ≠ .fenced)) = s.fenceWait :=
    List.filter_eq_self.mpr fun f hf => by simpa using h f hf
  rw [hdone, State.clearFences, hkept]
  rfl

theorem endPurges_of_one {s : State} {a : AgentId} (kept : Option AgentId)
    (h : ∀ b, b ≠ a → ¬ s.PurgeIsOver b) : s.endPurges kept = s.endPurge kept a := by
  obtain ⟨before, after, hl⟩ : ∃ before after, allAgents = before ++ a :: after :=
    List.append_of_mem (List.mem_finRange a)
  have hnodup : (before ++ a :: after).Nodup := hl ▸ List.nodup_finRange 32
  have hbefore : ∀ b ∈ before, b ≠ a := fun b hb =>
    (List.nodup_append.mp hnodup).2.2 b hb a List.mem_cons_self
  have hafter : ∀ b ∈ after, b ≠ a := fun b hb he =>
    (List.nodup_cons.mp (List.nodup_append.mp hnodup).2.1).1 (he ▸ hb)
  unfold State.endPurges
  rw [hl, List.foldl_append, List.foldl_cons,
    foldl_fixed _ s before fun b hb => endPurge_not_over (h b (hbefore b hb))]
  refine foldl_fixed _ _ after fun b hb => endPurge_not_over ?_
  have hagent := endPurge_agent_of_ne s kept (hafter b hb)
  unfold State.PurgeIsOver
  rw [hagent]
  exact h b (hafter b hb)

/-- A claim that empties no change and in which no other purge can end. -/
theorem finish_of_one {s : State} {a : AgentId} (hemptied : ∀ k, ¬ s.Emptied k)
    (hothers : ∀ b, b ≠ a → ¬ s.PurgeIsOver b) (hsettled : ∀ kept, Settled (s.endPurge kept a))
    (caller : Option AgentId) : s.finish caller = s.endPurge (s.endsInClaim caller) a := by
  have hsettle : ∀ kept, s.settle kept false = s.endPurge kept a := fun kept => by
    obtain ⟨-, -, hfence, -⟩ := hsettled kept
    unfold State.settle
    rw [completeEmptied_of_none hemptied]
    dsimp only
    rw [endPurges_of_one kept hothers]
    exact post_nothing hfence
  unfold State.finish
  dsimp only
  rw [hsettle, reconsider_of_settled (hsettled _)]

/-- The start of a purge with something held, and nothing else to do, is the whole claim. -/
theorem finish_purgeStart_held {s : State} {a : AgentId} {target : PurgeTarget} (hs : Settled s)
    (ht : target ≠ .fenced) (ha : Unencumbered s a) (hheld : (s.agent a).held ≠ 0)
    (caller : Option AgentId) :
    (s.purgeStart a target).finish caller = s.purgeBegun a target := by
  have hagent := purgeBegun_agent s a target
  have hslots : (s.purgeBegun a target).slots = s.slots := rfl
  have hengine : (s.purgeBegun a target).engine = s.engine := rfl
  rw [purgeStart_of_unencumbered ht ha]
  generalize s.purgeBegun a target = t at hagent hslots hengine ⊢
  refine finish_of_settled (settled_of_agent (a := a) hs hslots hengine
    (fun b hb => (hagent b).trans (if_neg hb)) ?_ fun _ => ?_) caller
  · rw [hagent, if_pos rfl]
    exact nofun
  · rw [hagent, if_pos rfl]
    exact hheld

end Sys2Proof.Machine
end

section
/-! SUPPORT. HELLO and GOODBYE (O20, O21), assembled. -/

namespace Sys2Proof.Machine

/-! ## The end of a HELLO claim (R33, log 14) -/

theorem finish_of_purging {u : State} {a : AgentId}
    (h : (((u.settle none false).reconsider none).agent a).state = .purging) :
    u.finish (some a) = (u.settle none false).reconsider none := by
  have hkept : u.endsInClaim (some a) = none := by simp [State.endsInClaim, h]
  rw [State.finish, hkept]

theorem finish_of_not_purging {u : State} {a : AgentId}
    (h : (((u.settle none false).reconsider none).agent a).state ≠ .purging) :
    u.finish (some a) = (u.settle (some a) false).reconsider (some a) := by
  have hkept : u.endsInClaim (some a) = some a := by simp [State.endsInClaim, h]
  rw [State.finish, hkept]

/-- Where the first run places the WELCOME, the place kept makes no difference. -/
theorem HelloClaim.Course.same_of_welcomed {h : HelloClaim} {named : Prop} {filled : Bool} {x y : State}
    (hc : h.Course named filled x y) (howed : (x.agent h.agent).welcomeOwed = false) : y = x := by
  cases hc with
  | together ended alone same => exact same
  | parted d m ended hd hp =>
    rw [((hp.alike.agent h.agent).own rfl).1.owed] at howed
    cases howed

/-- Where the first run leaves the WELCOME owed, the last message on the HELLO's port gives its place to it, and
the two runs differ in that alone. -/
theorem HelloClaim.Course.place_given {h : HelloClaim} {filled : Bool} {x y : State}
    (hc : h.Course True filled x y) (hended : (x.agent h.agent).state ≠ .purging)
    (howed : (x.agent h.agent).welcomeOwed = true) :
    y = { x with ports := y.ports, agents := y.agents, slots := y.slots } ∧
    (∀ q, q ≠ h.port → y.port q = x.port q) ∧
    y.agent h.agent = { x.agent h.agent with welcomeOwed := false } ∧
    ∃ l m b, b ≠ h.agent ∧ h.bound b = some h.port ∧ (x.port h.port).outbound = l ++ [m] ∧
      y.port h.port = { x.port h.port with outbound := l ++ [h.welcome] } ∧
      (m = .welcome b .accepted ∧ y.agent b = { x.agent b with welcomeOwed := true } ∧
          (∀ c, c ≠ h.agent → c ≠ b → y.agent c = x.agent c) ∧ (∀ k, y.slot k = x.slot k) ∨
        (∀ c, c ≠ h.agent → y.agent c = x.agent c) ∧ ∃ k, m = x.recallMessage k b false ∧
          y.slot k = { x.slot k with unsent := addAgent (x.slot k).unsent b } ∧
          ∀ j, j ≠ k → y.slot j = x.slot j) := by
  cases hc with
  | together ended alone same =>
    have hown := (alone.agent h.agent).own rfl
    cases ended with
    | false => exact absurd (hown.purging rfl).1 hended
    | true => rw [hown.owed] at howed; cases howed
  | parted d m ended hd hp =>
    obtain ⟨hown, hwelcomed⟩ := (hp.alike.agent h.agent).own rfl
    obtain rfl : ended = true := by
      cases ended with
      | false => exact absurd (hown.purging rfl).1 hended
      | true => rfl
    obtain ⟨l, -, -, hx, hy⟩ := hp.alike.ports.last
    refine ⟨?_, hp.alike.ports.others, ?_, h.queue ++ l, m, d.recipient, hp.recipient.1, hp.recipient.2, hx,
      hy, ?_⟩
    · obtain ⟨P, A, L, hrest⟩ := hp.alike.rest
      rw [hrest]
      rfl
    · rw [(hp.alike.agent h.agent).owed, hwelcomed]
      rfl
    · cases d with
      | welcome b =>
        refine .inl ⟨hp.welcome b rfl, ?_, fun c hc hcb => (hp.alike.agent c).other hc fun he => ?_,
          hp.alike.slot_eq ⟨b, rfl⟩⟩
        · show y.agent b = { x.agent b with welcomeOwed := true }
          rw [(hp.alike.agent b).owed, ((hp.alike.agent b).displaced rfl).2.2]
        · cases he
          exact hcb rfl
      | unsent k b =>
        have hslots := hp.slots k b rfl trivial
        refine .inr ⟨fun c hc => (hp.alike.agent c).other hc nofun, k, hslots.message, ?_, fun j hj => ?_⟩
        · rw [hslots.slot, if_pos rfl]
          rfl
        · rw [hslots.slot, if_neg hj]

section
variable {s : State} {p : PortId} {a : AgentId}

/-- The two runs of the claim's end, where a HELLO starts the purge of an ACTIVE agent. -/
theorem hello_course {named : Prop} (hroom : s.HasRoom p) (hport : (s.agent a).port = some p)
    (hnamed : named → ChangesNamed s) :
    (helloClaim s p a).Course named true
      (((s.purgeStart a .active).settle none false).reconsider none)
      (((s.purgeStart a .active).settle (some a) false).reconsider (some a)) := by
  have hu := purgeStart_alone hroom hport
  have hslots : named → SlotsNamed (s.purgeStart a .active) := fun hn =>
    purgeStart_slotsNamed (target := .active) nofun (slotsNamed_of_changesNamed (hnamed hn))
  generalize s.purgeStart a .active = u at hu hslots ⊢
  exact hu.runs fun hn k => settle_not_emptied (hslots hn) none false k

/-- Its purge running at the end of the claim, the HELLO's agent holds something. -/
theorem hello_held (hroom : s.HasRoom p) (hport : (s.agent a).port = some p)
    (hp : (((((s.purgeStart a .active).settle none false).reconsider none)).agent a).state = .purging) :
    (((((s.purgeStart a .active).settle none false).reconsider none)).agent a).held ≠ 0 := by
  have hu := purgeStart_alone hroom hport
  generalize s.purgeStart a .active = u at hu hp ⊢
  have hstart : (helloClaim s p a).Course False false u u := .together false hu rfl
  exact (hstart.settle false).reconsider_held False.elim (hstart.settle_held false) hp

/-- A HELLO of an ACTIVE agent bound here: its WELCOME is placed exactly when its purge ends in the claim. -/
theorem hello_of_active (hroom : s.HasRoom p) (hport : (s.agent a).port = some p) :
    let t : State := (s.purgeStart a .active).finish (some a)
    ∃ l, (t.port p).outbound = (s.port p).outbound ++ l ∧
      ((t.agent a).state = .active ∧ (t.agent a).target = none ∧ (t.agent a).port = some p ∧
          (t.agent a).held = 0 ∧ (t.agent a).welcomeOwed = false ∧ .welcome a .accepted ∈ l ∨
        (t.agent a).state = .purging ∧ (t.agent a).target = some .active ∧
          (t.agent a).port = some p ∧ (t.agent a).held ≠ 0 ∧ (t.agent a).welcomeOwed = true ∧
          .welcome a .accepted ∉ l) := by
  have hc := hello_course (named := False) hroom hport False.elim
  have hholds := hello_held hroom hport
  have hpurging := finish_of_purging (u := s.purgeStart a .active) (a := a)
  have hnot := finish_of_not_purging (u := s.purgeStart a .active) (a := a)
  intro t
  change _ → t = _ at hpurging
  change _ → t = _ at hnot
  generalize ((s.purgeStart a .active).settle none false).reconsider none = x at hc hholds hpurging hnot
  generalize ((s.purgeStart a .active).settle (some a) false).reconsider (some a) = y at hc hnot
  clear_value t
  by_cases hp : (x.agent a).state = .purging
  · obtain rfl := hpurging hp
    obtain ⟨htarget, hbound, howed, l, hl, hmem⟩ := hc.waits hp
    exact ⟨l, hl, .inr ⟨hp, htarget, hbound, hholds hp, howed, hmem⟩⟩
  · obtain rfl := hnot hp
    obtain ⟨hstate, htarget, hbound, hheld, howed, l, hl, hmem⟩ := hc.ends hp
    exact ⟨l, hl, .inl ⟨hstate, htarget, hbound, hheld, howed, hmem⟩⟩

/-! ## A purge that ends at its start -/

theorem endsInClaim_cases (u : State) (a : AgentId) :
    u.endsInClaim (some a) = none ∨ u.endsInClaim (some a) = some a := by
  unfold State.endsInClaim
  rw [Option.filter_some]
  split
  · exact .inr rfl
  · exact .inl rfl

theorem purgeBegun_not_over {target : PurgeTarget} (hs : Settled s) {b : AgentId} (hb : b ≠ a) :
    ¬ (s.purgeBegun a target).PurgeIsOver b := by
  unfold State.PurgeIsOver
  rw [purgeBegun_agent, if_neg hb]
  exact fun ⟨hp, h0⟩ => hs.2.1 b hp h0

/-- A purge that starts with nothing held, and nothing else to do, ends in its claim. -/
theorem finish_purgeStart_ends {target : PurgeTarget} (hs : Settled s) (ht : target ≠ .fenced)
    (ha : Unencumbered s a) (hheld : (s.agent a).held = 0) (caller : Option AgentId) :
    (s.purgeStart a target).finish caller
      = (s.purgeBegun a target).endPurge ((s.purgeBegun a target).endsInClaim caller) a := by
  have hslots : (s.purgeBegun a target).slots = s.slots := rfl
  have hengine : (s.purgeBegun a target).engine = s.engine := rfl
  have hemptied : ∀ k, ¬ (s.purgeBegun a target).Emptied k := hs.1
  have hagent := purgeBegun_agent s a target
  have hnever : ∀ b, b ≠ a → ¬ (s.purgeBegun a target).PurgeIsOver b := fun _ => purgeBegun_not_over hs
  rw [purgeStart_of_unencumbered ht ha]
  generalize s.purgeBegun a target = v at hagent hslots hengine hemptied hnever ⊢
  have hown := hagent a
  rw [if_pos rfl] at hown
  have hover : v.PurgeIsOver a := by
    rw [State.PurgeIsOver, hown]
    exact ⟨rfl, hheld⟩
  have hframe : ∀ kept, (v.endPurge kept a).slots = v.slots := fun kept => by
    rw [endPurge_over hover]
    exact (reachTarget_frame v kept a).2
  have hstate : ∀ kept, ((v.endPurge kept a).agent a).state = target.reached := fun kept => by
    rw [endPurge_over hover]
    exact reachTarget_state kept (by rw [hown])
  refine finish_of_one hemptied hnever (fun kept => settled_of_agent (a := a) hs
    ((hframe kept).trans hslots) ((endPurge_engine v kept a).trans hengine)
    (fun b hb => (endPurge_agent_of_ne v kept hb).trans ((hagent b).trans (if_neg hb))) ?_ fun hp => ?_)
    caller
  · rw [hstate]
    cases target with
    | fenced => exact absurd rfl ht
    | active => exact nofun
    | absent => exact nofun
  · exact absurd ((hstate kept).symm.trans hp) (reached_ne_purging target)

/-- The claim of a HELLO whose agent holds nothing and has nothing under way: the agent is ACTIVE again, and
its WELCOME is placed. -/
theorem hello_ends_at_once (hs : Settled s) (hroom : s.HasRoom p) (hport : (s.agent a).port = some p)
    (ha : Unencumbered s a) (hheld : (s.agent a).held = 0) :
    ∃ agents purgeSet, (s.purgeStart a .active).finish (some a)
        = { s.sent p (.welcome a .accepted) with agents := agents, purgeSet := purgeSet } ∧
      ∀ b, tableGet Agent.initial agents b = if b = a then { s.agent a with
        state := .active, target := none, welcomeOwed := false } else s.agent b := by
  have halone := purgeStart_alone hroom hport
  rw [purgeStart_of_unencumbered (by decide) ha] at halone
  have hkept : ∀ kept, kept = none ∨ kept = some a →
      (s.purgeBegun a .active).welcomePort kept a = some p := halone.welcomePort rfl
  have hagent := purgeBegun_agent s a .active
  have hown := hagent a
  rw [if_pos rfl] at hown
  have hover : (s.purgeBegun a .active).PurgeIsOver a := by
    rw [State.PurgeIsOver, hown]
    exact ⟨rfl, hheld⟩
  have hroom' : (s.purgeBegun a .active).HasRoom p := hroom
  rw [finish_purgeStart_ends hs (by decide) ha hheld, endPurge_over hover,
    reachTarget_placed (by rw [hown]) (hkept _ (endsInClaim_cases _ a)), setAgent_place hroom']
  have hset := fun r b => State.setAgent_agent (s.purgeBegun a .active) a b r
  refine ⟨((s.purgeBegun a .active).setAgent a { (s.purgeBegun a .active).agent a with
    state := .active, target := none, welcomeOwed := false }).agents, _, rfl, fun b => ?_⟩
  refine (hset _ b).trans ?_
  rw [hown, hagent]
  split <;> rfl

/-- A HELLO of an agent with nothing under way, in a settled state (R33). -/
theorem hello_of_unencumbered (hs : Settled s) (hroom : s.HasRoom p)
    (hport : (s.agent a).port = some p) (ha : Unencumbered s a) :
    let t : State := (s.purgeStart a .active).finish (some a)
    ((s.agent a).held = 0 →
      t.agent a = { s.agent a with state := .active, target := none, welcomeOwed := false } ∧
      (t.port p).outbound = (s.port p).outbound ++ [.welcome a .accepted]) ∧
    ((s.agent a).held ≠ 0 →
      t.agent a = { s.agent a with
        state := .purging, target := some .active, welcomeOwed := true } ∧
      (t.port p).outbound = (s.port p).outbound ∧ hasAgent t.purgeSet a = true) ∧
    t = { s with ports := t.ports, agents := t.agents, purgeSet := t.purgeSet } ∧
    (∀ b, b ≠ a → t.agent b = s.agent b) ∧ ∀ q, q ≠ p → t.port q = s.port q := by
  intro t
  by_cases hheld : (s.agent a).held = 0
  · obtain ⟨agents, purgeSet, ht, hagents⟩ := hello_ends_at_once hs hroom hport ha hheld
    have ht : t = _ := ht
    rw [ht]
    refine ⟨fun _ => ⟨(hagents a).trans (if_pos rfl), ?_⟩, fun hne => absurd hheld hne, rfl,
      fun b hb => (hagents b).trans (if_neg hb), fun q hq => ?_⟩
    · show ((s.sent p (.welcome a .accepted)).port p).outbound = _
      rw [State.sent, State.setPort_port, if_pos rfl]
    · show (s.sent p (.welcome a .accepted)).port q = _
      rw [State.sent, State.setPort_port, if_neg hq]
  · have ht : t = s.purgeBegun a .active := finish_purgeStart_held hs (by decide) ha hheld (some a)
    rw [ht]
    refine ⟨fun h0 => absurd h0 hheld, fun _ => ⟨?_, rfl, ?_⟩, rfl, fun b hb => ?_, fun _ _ => rfl⟩
    · rw [purgeBegun_agent, if_pos rfl]
      rfl
    · show hasAgent (addAgent s.purgeSet a) a = true
      rw [hasAgent_addAgent]
      simp
    · rw [purgeBegun_agent, if_neg hb]

/-- A GOODBYE of an agent with nothing under way, in a settled state (R34). -/
theorem goodbye_of_unencumbered (hs : Settled s) (ha : Unencumbered s a) :
    let t : State := (s.purgeStart a .absent).finish none
    t = { s with agents := t.agents, purgeSet := t.purgeSet } ∧
    (∀ b, b ≠ a → t.agent b = s.agent b) ∧
    ((s.agent a).held = 0 → t.agent a = { s.agent a with
      state := .absent, port := none, target := none, welcomeOwed := false }) ∧
    ((s.agent a).held ≠ 0 → hasAgent t.purgeSet a = true ∧ t.agent a = { s.agent a with
      state := .purging, target := some .absent, welcomeOwed := false }) := by
  intro t
  have hagent := purgeBegun_agent s a .absent
  have hown := hagent a
  rw [if_pos rfl] at hown
  by_cases hheld : (s.agent a).held = 0
  · have hover : (s.purgeBegun a .absent).PurgeIsOver a := by
      rw [State.PurgeIsOver, hown]
      exact ⟨rfl, hheld⟩
    have ht : t = (s.purgeBegun a .absent).purgeEnded a :=
      (finish_purgeStart_ends hs (by decide) ha hheld none).trans (endPurge_of_over hover)
    have hended : (s.purgeBegun a .absent).purgeEnded a
        = { (s.purgeBegun a .absent).setAgent a { (s.purgeBegun a .absent).agent a with
              state := .absent, port := none, target := none, welcomeOwed := false } with
            purgeSet := dropAgent (s.purgeBegun a .absent).purgeSet a } := by
      unfold State.purgeEnded
      dsimp only
      rw [hown]
      rfl
    have hset := fun r b => State.setAgent_agent (s.purgeBegun a .absent) a b r
    rw [ht, hended]
    refine ⟨rfl, fun b hb => ?_, fun _ => ?_, fun hne => absurd hheld hne⟩
    · exact (hset _ b).trans ((if_neg hb).trans ((hagent b).trans (if_neg hb)))
    · exact (hset _ a).trans ((if_pos rfl).trans (by rw [hown]))
  · have ht : t = s.purgeBegun a .absent := finish_purgeStart_held hs (by decide) ha hheld none
    rw [ht]
    refine ⟨rfl, fun b hb => (hagent b).trans (if_neg hb), fun h0 => absurd h0 hheld, fun _ => ⟨?_, hown⟩⟩
    show hasAgent (addAgent s.purgeSet a) a = true
    rw [hasAgent_addAgent]
    simp

/-! ## GOODBYE by the agent's state (R34) -/

theorem takeGoodbye_discarded
    (h : (s.agent a).state = .absent ∨ (s.agent a).state = .fenced ∨ (s.agent a).port ≠ some p) :
    s.takeGoodbye p a = s := by
  refine if_neg fun ⟨hport, hstate⟩ => ?_
  rcases h with h | h | h
  · rw [h] at hstate
    exact hstate.elim nofun nofun
  · rw [h] at hstate
    exact hstate.elim nofun nofun
  · exact h hport

theorem takeGoodbye_of_active (h : (s.agent a).state = .active) (hport : (s.agent a).port = some p) :
    s.takeGoodbye p a = (s.purgeStart a .absent).finish none := by
  rw [State.takeGoodbye, if_pos ⟨hport, .inl h⟩]
  simp only [State.depart, h]

/-- A PURGING agent's target ACTIVE becomes ABSENT; any other stays. -/
theorem takeGoodbye_of_purging (hs : Settled s) (h : (s.agent a).state = .purging)
    (hport : (s.agent a).port = some p) : s.takeGoodbye p a =
      if (s.agent a).target = some .active then
        s.setAgent a { s.agent a with target := some .absent, welcomeOwed := false }
      else s := by
  rw [State.takeGoodbye, if_pos ⟨hport, .inr h⟩]
  simp only [State.depart, h]
  split
  · have hagent := fun r b => State.setAgent_agent s a b r
    refine finish_of_settled (settled_of_agent (a := a) hs ?_ ?_ (fun b hb => ?_) ?_ fun _ => ?_) none
    · rfl
    · rfl
    · exact (hagent _ b).trans (if_neg hb)
    · rw [hagent, if_pos rfl]
      exact nofun
    · rw [hagent, if_pos rfl]
      exact hs.2.1 a h
  · exact finish_of_settled hs none

end

/-- Settles O20: a row of R33's table each; for an ACTIVE agent, the two runs of the claim's end, with no place
kept and with the place kept, are the same until a message takes the last place in the first. -/
theorem helloByAgentState : Obligations.HelloByAgentState := by
  refine ⟨finish_none, fun s p a rest _ hroom _ _ hport hnamed => ?_,
    fun s p a rest hserving hroom hin => ?_,
    fun s p a rest hserving hroom hin hstate hport hfree hsettled => ?_⟩
  · intro u same t
    have hc := hello_course (named := True) (s := s.tookFrom p rest) (tookFrom_hasRoom rest hroom) hport
      fun _ => hnamed
    refine ⟨fun h => ?_, fun hended howed => ?_⟩
    · by_cases hp : (same.agent a).state = .purging
      · exact finish_of_purging hp
      · exact (finish_of_not_purging hp).trans (hc.same_of_welcomed (h.resolve_left hp))
    · have ht : t = _ := finish_of_not_purging hended
      rw [ht]
      exact hc.place_given hended howed
  · intro taken r
    have hroom' : taken.HasRoom p := tookFrom_hasRoom rest hroom
    rw [exec_hello_of_head hserving hroom hin]
    refine ⟨fun h => ?_, fun h hport => ?_, fun h hport ht => ?_, fun h hport ht => ?_,
      fun h hport ht => ?_, fun q h hport hq => ?_, fun h hport => ?_⟩
    · exact congrArg _ (takeHello_of_absent hroom' h)
    · exact congrArg _ (takeHello_of_fenced hroom' h hport)
    · exact congrArg _ (takeHello_of_purging_fenced (s := taken) hroom' h hport ht)
    · exact congrArg _ (takeHello_of_purging_absent (s := taken) h hport ht)
    · exact congrArg _ (takeHello_of_purging_active (s := taken) h hport ht)
    · exact congrArg _ (takeHello_of_bound_elsewhere hroom' h hport hq)
    · refine ⟨_, rfl, takeHello_of_active (s := taken) h hport, ?_⟩
      rw [takeHello_of_active (s := taken) h hport]
      have hout : (taken.port p).outbound = (s.port p).outbound := by rw [tookFrom_port, if_pos rfl]
      rw [← hout]
      exact hello_of_active hroom' hport
  · rw [exec_hello_of_head hserving hroom hin, takeHello_of_active (s := s.tookFrom p rest) hstate hport]
    obtain ⟨hnone, hsome, hframe, hagents, hports⟩ := hello_of_unencumbered (s := s.tookFrom p rest)
      hsettled (tookFrom_hasRoom rest hroom) hport hfree
    have hout : ((s.tookFrom p rest).port p).outbound = (s.port p).outbound := by
      rw [tookFrom_port, if_pos rfl]
    rw [hout] at hnone hsome
    exact ⟨_, rfl, hnone, hsome, hframe, hagents, fun q hq => by
      rw [hports q hq, tookFrom_port, if_neg hq]⟩

/-- Settles O21: a row of R34 each; a purge that ends at its start changes its agent's record and the purge
set alone. -/
theorem goodbyeByAgentState : Obligations.GoodbyeByAgentState := by
  intro s p a rest hserving hup hin taken r
  rw [exec_goodbye_of_head hserving hup hin]
  refine ⟨fun h => ?_, fun hs h hport ht => ?_, fun hs h hport ht => ?_, fun h hport => ?_,
    fun hs h hport hfree => ?_⟩
  · exact congrArg _ (takeGoodbye_discarded (s := taken) h)
  · rw [takeGoodbye_of_purging (s := taken) hs h hport, if_pos (by exact ht)]
    rfl
  · rw [takeGoodbye_of_purging (s := taken) hs h hport, if_neg (by exact ht)]
  · exact congrArg _ (takeGoodbye_of_active (s := taken) h hport)
  · rw [takeGoodbye_of_active (s := taken) h hport]
    exact ⟨_, rfl, goodbye_of_unencumbered (s := taken) hs hfree⟩

end Sys2Proof.Machine
end

section
/-! SUPPORT. The arbiter and the checks of a lookup (O28, O29). -/

namespace Sys2Proof.Machine

/-! ## The covering search (R9) -/

theorem covering_eq_none_iff {s : State} {c : ContextId} {page : LocalPage} :
    s.covering c page = none ↔ ∀ w ∈ s.windowList c, ¬ Covers (s.window w) page := by
  simp only [State.covering, List.find?_eq_none, decide_eq_true_eq]

theorem covering_sound {s : State} {c : ContextId} {page : LocalPage} {w : WindowId}
    (h : s.covering c page = some w) : w ∈ s.windowList c ∧ Covers (s.window w) page :=
  ⟨List.mem_of_find?_eq_some h, by simpa using List.find?_some h⟩

/-- The search finds a window that covers the page alone. -/
theorem covering_of_only {s : State} {c : ContextId} {page : LocalPage} {w : WindowId}
    (hmem : w ∈ s.windowList c) (hcovers : Covers (s.window w) page)
    (honly : ∀ v ∈ s.windowList c, Covers (s.window v) page → v = w) : s.covering c page = some w := by
  cases hfound : s.covering c page with
  | none => exact absurd hcovers (covering_eq_none_iff.mp hfound w hmem)
  | some v =>
    obtain ⟨hv, hcovers'⟩ := covering_sound hfound
    rw [honly v hv hcovers']

/-! ## Checks 1 to 8 (R47) -/

/-- Check 1: the agent is bound to the port it is answered on. -/
abbrev State.Joined (s : State) (p : PortId) (a : AgentId) : Prop :=
  (s.agent a).state ≠ .absent ∧ (s.agent a).port = some p

/-- Check 6: the agent is a member of the context and not leaving it. -/
abbrev Context.Admits (c : Context) (a : AgentId) : Prop :=
  hasAgent c.members a = true ∧ hasAgent c.leaving a = false

section
variable {s : State} {p : PortId} {r : Request}

theorem lookupChecks_of_not_joined (h : ¬ s.Joined p r.agent) :
    s.lookupChecks p r = .deny .notJoined := by
  have hfails : (s.agent r.agent).state = .absent ∨ (s.agent r.agent).port ≠ some p := by
    rwa [State.Joined, not_and_or, not_not] at h
  exact if_pos hfails

theorem lookupChecks_of_fenced (h : s.Joined p r.agent) (hstate : (s.agent r.agent).state = .fenced) :
    s.lookupChecks p r = .deny .fenced := by
  simp [State.lookupChecks, hstate, h.2]

theorem lookupChecks_of_purging (h : s.Joined p r.agent) (hstate : (s.agent r.agent).state = .purging) :
    s.lookupChecks p r = .deny .retry := by
  simp [State.lookupChecks, hstate, h.2]

section
variable (hport : (s.agent r.agent).port = some p) (hactive : (s.agent r.agent).state = .active)
include hport hactive

theorem lookupChecks_of_free_context (h : (s.context r.context).state = .free) :
    s.lookupChecks p r = .deny .noContext := by
  simp [State.lookupChecks, hport, hactive, h]

theorem lookupChecks_of_closing_context (h : (s.context r.context).state = .closing) :
    s.lookupChecks p r = .deny .closing := by
  simp [State.lookupChecks, hport, hactive, h]

section
variable (hopen : (s.context r.context).state = .opened)
include hopen

theorem lookupChecks_of_not_admitted (h : ¬ (s.context r.context).Admits r.agent) :
    s.lookupChecks p r = .deny .notMember := by
  have hfails : hasAgent (s.context r.context).members r.agent = false ∨
      hasAgent (s.context r.context).leaving r.agent = true := by
    rwa [Context.Admits, not_and_or, Bool.not_eq_true, Bool.not_eq_false] at h
  simp [State.lookupChecks, hport, hactive, hopen, hfails]

theorem lookupChecks_of_no_window (h : (s.context r.context).Admits r.agent)
    (hnone : s.covering r.context r.page = none) : s.lookupChecks p r = .deny .noWindow := by
  simp [State.lookupChecks, hport, hactive, hopen, h.1, h.2, hnone]

theorem lookupChecks_of_window (h : (s.context r.context).Admits r.agent) {w : WindowId}
    (hsome : s.covering r.context r.page = some w) :
    s.lookupChecks p r = if (s.window w).state = .changing then .changing w else .live w := by
  simp [State.lookupChecks, hport, hactive, hopen, h.1, h.2, hsome]

end
end
end

/-- Settles O28: each outcome is a branch of the checks, reached past the branches before it. -/
theorem lookupChecksInOrder : Obligations.LookupChecksInOrder := by
  refine ⟨fun s c page => ⟨covering_eq_none_iff, fun w => covering_sound, fun w => covering_of_only⟩,
    fun s p r => ?_⟩
  intro joined active opened member
  refine ⟨lookupChecks_of_not_joined, lookupChecks_of_fenced, lookupChecks_of_purging, ?_, ?_, ?_, ?_,
    ?_, ?_⟩
  · rintro ⟨⟨-, hport⟩, hactive⟩
    exact lookupChecks_of_free_context hport hactive
  · rintro ⟨⟨-, hport⟩, hactive⟩
    exact lookupChecks_of_closing_context hport hactive
  · intro hopened hmember
    have hadmits : ¬ (s.context r.context).Admits r.agent := fun h => hmember ⟨hopened, h⟩
    obtain ⟨⟨⟨-, hport⟩, hactive⟩, hopen⟩ := hopened
    exact lookupChecks_of_not_admitted hport hactive hopen hadmits
  · rintro ⟨⟨⟨⟨-, hport⟩, hactive⟩, hopen⟩, hadmits⟩
    exact lookupChecks_of_no_window hport hactive hopen hadmits
  · rintro w ⟨⟨⟨⟨-, hport⟩, hactive⟩, hopen⟩, hadmits⟩ hsome hchanging
    rw [lookupChecks_of_window hport hactive hopen hadmits hsome, if_pos hchanging]
  · rintro w ⟨⟨⟨⟨-, hport⟩, hactive⟩, hopen⟩, hadmits⟩ hsome hlive
    rw [lookupChecks_of_window hport hactive hopen hadmits hsome, if_neg hlive]

/-! ## The arbiter (R43, R45) -/

theorem portRequest_eq_some_iff {s : State} {p : PortId} {r : Request} :
    s.portRequest p = some r ↔ s.HasRoom p ∧ ∃ rest, (s.port p).inbound = .translate r :: rest := by
  unfold State.portRequest
  by_cases hroom : s.HasRoom p
  · rw [if_pos hroom, and_iff_right hroom]
    split
    · next hin => simp [hin]
    · next hother =>
      simp only [reduceCtorEq, false_iff, not_exists]
      exact hother r
  · simp only [if_neg hroom, reduceCtorEq, false_iff]
    exact fun h => hroom h.1

theorem replayHead_of_room {s : State} {e : EntryId} {rest : List EntryId} (h : s.replayList = e :: rest)
    (hroom : s.HasRoom (s.entry e).port) : s.replayHead = some e := by
  simp only [State.replayHead, h, if_pos hroom]

theorem replayHead_eq_none_iff {s : State} :
    s.replayHead = none ↔ s.replayList = [] ∨
      ∃ e rest, s.replayList = e :: rest ∧ ¬ s.HasRoom (s.entry e).port := by
  cases h : s.replayList with
  | nil => simp [State.replayHead, h]
  | cons e rest =>
    by_cases hroom : s.HasRoom (s.entry e).port
    · rw [replayHead_of_room h hroom]
      simpa using hroom
    · simpa only [State.replayHead, h, if_neg hroom, true_iff, reduceCtorEq, false_or] using
        ⟨e, rest, rfl, hroom⟩

theorem portToServe_of_replayHead {s : State} {e : EntryId} (h : s.replayHead = some e) :
    s.portToServe = none := by
  simp [State.portToServe, h]

theorem portToServe_of_no_replayHead {s : State} (h : s.replayHead = none) :
    s.portToServe = s.rotation.find? fun p => (s.portRequest p).isSome := by
  simp [State.portToServe, h]

/-- The rotation lists the ports in the order of their distance past the last one served. -/
theorem rotation_pairwise (s : State) :
    s.rotation.Pairwise fun p q => (p - s.lastPort - 1 : PortId) < (q - s.lastPort - 1 : PortId) := by
  unfold State.rotation
  generalize s.lastPort = l
  revert l
  decide

theorem mem_rotation (s : State) (p : PortId) : p ∈ s.rotation := by
  unfold State.rotation
  generalize s.lastPort = l
  revert l p
  decide

/-- In a list that rises by a key, the first member that a test accepts is the one of least key. -/
theorem find?_eq_some_iff_of_rising {α κ : Type} [Preorder κ] {key : α → κ} {accepts : α → Bool}
    {l : List α} (hrising : l.Pairwise fun x y => key x < key y) {x : α} :
    l.find? accepts = some x ↔
      x ∈ l ∧ accepts x = true ∧ ∀ y ∈ l, key y < key x → accepts y = false := by
  induction l with
  | nil => simp
  | cons z l ih =>
    obtain ⟨hz, hl⟩ := List.pairwise_cons.mp hrising
    cases haccepts : accepts z with
    | true =>
      rw [List.find?_cons_of_pos haccepts]
      constructor
      · rintro ⟨⟩
        refine ⟨List.mem_cons_self, haccepts, fun y hy hlt => ?_⟩
        rcases List.mem_cons.mp hy with rfl | hy
        · exact absurd hlt (lt_irrefl _)
        · exact absurd hlt (lt_asymm (hz y hy))
      · rintro ⟨hx, -, hfirst⟩
        rcases List.mem_cons.mp hx with rfl | hx
        · rfl
        · have hrejects := hfirst z List.mem_cons_self (hz x hx)
          rw [haccepts] at hrejects
          cases hrejects
    | false =>
      rw [List.find?_cons_of_neg (by rw [haccepts]; decide), ih hl]
      constructor
      · rintro ⟨hx, hax, hfirst⟩
        refine ⟨List.mem_cons_of_mem _ hx, hax, fun y hy hlt => ?_⟩
        rcases List.mem_cons.mp hy with rfl | hy
        · exact haccepts
        · exact hfirst y hy hlt
      · rintro ⟨hx, hax, hfirst⟩
        refine ⟨?_, hax, fun y hy => hfirst y (List.mem_cons_of_mem _ hy)⟩
        rcases List.mem_cons.mp hx with rfl | hx
        · rw [haccepts] at hax
          cases hax
        · exact hx

theorem portToServe_eq_some_iff {s : State} (h : s.replayHead = none) {p : PortId} :
    s.portToServe = some p ↔ (s.portRequest p).isSome = true ∧
      ∀ q, (q - s.lastPort - 1 : PortId) < (p - s.lastPort - 1 : PortId) → s.portRequest q = none := by
  rw [portToServe_of_no_replayHead h, find?_eq_some_iff_of_rising (rotation_pairwise s)]
  simp only [mem_rotation, true_and, forall_true_left, Option.isSome_eq_false_iff, Option.isNone_iff_eq_none]

theorem portToServe_eq_none_iff {s : State} (h : s.replayHead = none) :
    s.portToServe = none ↔ ∀ p, s.portRequest p = none := by
  simp only [portToServe_of_no_replayHead h, List.find?_eq_none, mem_rotation, forall_true_left,
    Option.not_isSome_iff_eq_none]

/-- A claim that leaves the state as it was does so whether or not it is taken. -/
theorem whenServing_of_same {s : State} {f : State → State} (h : f s = s) : s.whenServing f = s := by
  rw [State.whenServing, h, ite_self]

theorem exec_replay_of_no_replayHead {s : State} (h : s.replayHead = none) : exec .replay s = .next s :=
  congrArg Host.Outcome.next (whenServing_of_same (by simp only [h]))

theorem exec_lookup_of_no_portToServe {s : State} (h : s.portToServe = none) :
    exec .lookup s = .next s :=
  congrArg Host.Outcome.next (whenServing_of_same (by simp only [h]))

/-- Settles O29: the port served is the first of the rotation that holds a request, and the rotation rises
by the distance past the last port served. -/
theorem arbiterServesInRotation : Obligations.ArbiterServesInRotation := by
  intro s room
  refine ⟨fun e rest hlist hroom => ?_, replayHead_eq_none_iff, fun p r => portRequest_eq_some_iff,
    fun h p => portToServe_eq_some_iff h, portToServe_eq_none_iff, exec_replay_of_no_replayHead,
    exec_lookup_of_no_portToServe⟩
  have hhead := replayHead_of_room hlist hroom
  exact ⟨hhead, portToServe_of_replayHead hhead⟩

end Sys2Proof.Machine
end

section
/-! SUPPORT. The lookup claim on the TRANSLATE at a port's head (O30, O31). -/

namespace Sys2Proof.Machine

/-! ## Grant-part reads (R161, R164) -/

theorem classify_of_clean {x : CodeWord} (h : x.flipped = []) : classify x = .clean x.written := by
  simp only [classify, h]

theorem classify_of_single {x : CodeWord} {b : CodeBit} (h : x.flipped = [b]) :
    classify x = .single x.written := by simp only [classify, h]

theorem classify_of_double {x : CodeWord} {b c : CodeBit} (h : x.flipped = [b, c]) :
    classify x = .double := by simp only [classify, h]

section
variable {s : State} {w : WindowId} (detector : Detector)

theorem readGrant_of_poisoned (hstate : (s.window w).state ≠ .free)
    (hpoisoned : (s.window w).poisoned = true) : s.readGrant detector w = (s, none) :=
  if_pos ⟨hstate, hpoisoned⟩

theorem not_poisoned_of_readable {flipped : List CodeBit} (h : Readable s w flipped) :
    ¬ ((s.window w).state ≠ .free ∧ (s.window w).poisoned = true) := by
  rintro ⟨hstate, hpoisoned⟩
  rcases h.1 with hfree | hclear
  · exact hstate hfree
  · rw [hclear] at hpoisoned
    cases hpoisoned

theorem readGrant_of_clean (h : Readable s w []) :
    s.readGrant detector w = (s, some (s.word w).written) := by
  rw [State.readGrant, if_neg (not_poisoned_of_readable h), classify_of_clean h.2]

theorem readGrant_of_single {b : CodeBit} (h : Readable s w [b]) :
    s.readGrant detector w = ((s.storageFault .corrected w detector).writeGrant w (s.word w).written,
      some (s.word w).written) := by
  rw [State.readGrant, if_neg (not_poisoned_of_readable h), classify_of_single h.2]

theorem readGrant_of_double {b c : CodeBit} (h : Readable s w [b, c]) :
    s.readGrant detector w = ((s.storageFault .uncorrected w detector).spoil w, none) := by
  rw [State.readGrant, if_neg (not_poisoned_of_readable h), classify_of_double h.2]

end

/-! ## Answers (R52 to R55) -/

section
variable {s t : State} {p : PortId} {r : Request} {w : WindowId} {g : GrantPart}

theorem deny_eq_sent (hroom : s.HasRoom p) (reason : DenyReason) :
    s.deny p r reason = s.sent p (.deny r.agent r.tag reason) := place_eq_sent hroom _

/-- The GRANT of `w` to a request, at the window's current values (R54). -/
def State.grantMessage (s : State) (r : Request) (w : WindowId) (g : GrantPart) : OutMsg :=
  .grant r.agent r.tag w (s.window w).version (s.window w).localBase (s.window w).length g

theorem grant_of_holder (hroom : s.HasRoom p) (h : hasAgent (s.window w).holders r.agent = true) :
    s.grant p r w g = s.sent p (s.grantMessage r w g) := by
  rw [State.grant, addHolder_of_holder h]
  exact place_eq_sent hroom _

theorem grant_of_no_holder (hroom : s.HasRoom p) (h : hasAgent (s.window w).holders r.agent = false) :
    s.grant p r w g =
      ((s.setWindow w { s.window w with
          holders := addAgent (s.window w).holders r.agent }).setAgent r.agent
        { s.agent r.agent with held := (s.agent r.agent).held + 1 }).sent p (s.grantMessage r w g) := by
  rw [State.grant, addHolder_of_no_holder h]
  exact setAgent_place (s := s.setWindow w _) hroom _ _ _

theorem answerLive_of_unread (h : s.readGrant .lookup w = (t, none)) :
    s.answerLive p r w = t.deny p r .poisoned := by
  simp only [State.answerLive, h]

theorem answerLive_of_admits (h : s.readGrant .lookup w = (t, some g))
    (hadmits : admits g.rights r.kind = true) : s.answerLive p r w = t.grant p r w g := by
  simp only [State.answerLive, h, if_pos hadmits]

theorem answerLive_of_not_admits (h : s.readGrant .lookup w = (t, some g))
    (hadmits : admits g.rights r.kind = false) : s.answerLive p r w = t.deny p r .rights := by
  simp only [State.answerLive, h, hadmits, Bool.false_eq_true, if_false]

/-! ## Stored errors that a lookup finds (R164) -/

/-- A single error in the grant part of `w`, corrected and recorded by a lookup. -/
def State.corrected (s : State) (w : WindowId) : State :=
  { s.setWord w ⟨(s.word w).written, []⟩ with
    storageBank := recordStorage s.storageBank .corrected w .lookup false }

/-- A double error in the grant part of `w`: the window poisoned, and the error recorded by a lookup. -/
def State.poisonedBy (s : State) (w : WindowId) : State :=
  { s.setWindow w { s.window w with poisoned := true } with
    storageBank := recordStorage s.storageBank .uncorrected w .lookup false }

theorem storageFault_of_live (hstate : (s.window w).state = .live) (severity : Severity)
    (detector : Detector) :
    s.storageFault severity w detector =
      { s with storageBank := recordStorage s.storageBank severity w detector false } := by
  rw [State.storageFault, hstate]
  rfl

theorem used_of_live (hstate : (s.window w).state = .live) : (s.window w).state ≠ .free := by
  rw [hstate]
  decide

theorem spoil_of_used (h : (s.window w).state ≠ .free) :
    s.spoil w = s.setWindow w { s.window w with poisoned := true } := if_neg h

theorem readGrant_eq_corrected (hstate : (s.window w).state = .live) {b : CodeBit}
    (h : Readable s w [b]) : s.readGrant .lookup w = (s.corrected w, some (s.word w).written) := by
  rw [readGrant_of_single _ h]
  rw [storageFault_of_live hstate]
  rfl

theorem readGrant_eq_poisonedBy (hstate : (s.window w).state = .live) {b c : CodeBit}
    (h : Readable s w [b, c]) : s.readGrant .lookup w = (s.poisonedBy w, none) := by
  rw [readGrant_of_double _ h, spoil_of_used (s := s.storageFault _ w _) (used_of_live hstate),
    storageFault_of_live hstate]
  rfl

theorem corrected_word (s : State) (w : WindowId) :
    (s.corrected w).word w = ⟨(s.word w).written, []⟩ := by
  show (s.setWord w _).word w = _
  rw [State.setWord_word, if_pos rfl]

theorem readable_corrected {flipped : List CodeBit} (h : Readable s w flipped) :
    Readable (s.corrected w) w [] := ⟨h.1, by rw [corrected_word]⟩

/-- A request that meets a single error is answered as it is at the corrected word. -/
theorem answerLive_of_single (hstate : (s.window w).state = .live) {b : CodeBit}
    (h : Readable s w [b]) : s.answerLive p r w = (s.corrected w).answerLive p r w := by
  have hread : s.readGrant .lookup w = (s.corrected w).readGrant .lookup w := by
    rw [readGrant_eq_corrected hstate h, readGrant_of_clean _ (readable_corrected h), corrected_word]
  simp only [State.answerLive, hread]

end

/-! ## The claim on a port's head (R46) -/

/-- The arbiter serves the TRANSLATE of `r` at the head of port `p`, with `rest` behind it. -/
structure State.Serves (s : State) (p : PortId) (r : Request) (rest : List InMsg) : Prop where
  serving : Serving s
  port : s.portToServe = some p
  room : s.HasRoom p
  head : (s.port p).inbound = .translate r :: rest

/-- `s` with the head of port `p` taken by the lookup engine. -/
def State.claimed (s : State) (p : PortId) (rest : List InMsg) : State :=
  { s.tookFrom p rest with lastPort := p }

section
variable {s : State} {p : PortId} {r : Request} {rest : List InMsg} {w : WindowId}

theorem claimed_hasRoom (h : s.HasRoom p) : (s.claimed p rest).HasRoom p := tookFrom_hasRoom rest h

theorem takeInbound_eq_claimed (hin : (s.port p).inbound = .translate r :: rest) :
    { s.takeInbound p with lastPort := p } = s.claimed p rest := by
  rw [takeInbound_eq_tookFrom hin]
  rfl

theorem exec_lookup_of_serves (h : s.Serves p r rest) : exec .lookup s = .next (s.serve p r) := by
  show Host.Outcome.next (s.whenServing _) = _
  rw [whenServing_of_serving h.serving]
  simp only [h.port, portRequest_eq_some_iff.mpr ⟨h.room, rest, h.head⟩]

theorem exec_lookup_of_deny (h : s.Serves p r rest) {reason : DenyReason}
    (hchecks : s.lookupChecks p r = .deny reason) :
    exec .lookup s = .next ((s.claimed p rest).sent p (.deny r.agent r.tag reason)) := by
  have hclaimed : (s.claimed p rest).lookupChecks p r = .deny reason := hchecks
  rw [exec_lookup_of_serves h, State.serve, takeInbound_eq_claimed h.head]
  simp only [hclaimed, deny_eq_sent (claimed_hasRoom h.room)]

theorem exec_lookup_of_live (h : s.Serves p r rest) (hchecks : s.lookupChecks p r = .live w) :
    exec .lookup s = .next ((s.claimed p rest).answerLive p r w) := by
  have hclaimed : (s.claimed p rest).lookupChecks p r = .live w := hchecks
  rw [exec_lookup_of_serves h, State.serve, takeInbound_eq_claimed h.head]
  simp only [hclaimed]

theorem exec_lookup_of_clean_holder (h : s.Serves p r rest) (hchecks : s.lookupChecks p r = .live w)
    (hread : Readable s w []) (hadmits : admits (s.word w).written.rights r.kind = true)
    (hholder : hasAgent (s.window w).holders r.agent = true) :
    exec .lookup s =
      .next ((s.claimed p rest).sent p (s.grantMessage r w (s.word w).written)) := by
  rw [exec_lookup_of_live h hchecks,
    answerLive_of_admits (readGrant_of_clean (s := s.claimed p rest) .lookup hread) hadmits,
    grant_of_holder (s := s.claimed p rest) (claimed_hasRoom h.room) hholder]
  rfl

theorem exec_lookup_of_clean_no_holder (h : s.Serves p r rest)
    (hchecks : s.lookupChecks p r = .live w) (hread : Readable s w [])
    (hadmits : admits (s.word w).written.rights r.kind = true)
    (hholder : hasAgent (s.window w).holders r.agent = false) :
    exec .lookup s = .next ((((s.claimed p rest).setWindow w { s.window w with
        holders := addAgent (s.window w).holders r.agent }).setAgent r.agent
      { s.agent r.agent with held := (s.agent r.agent).held + 1 }).sent p
        (s.grantMessage r w (s.word w).written)) := by
  rw [exec_lookup_of_live h hchecks,
    answerLive_of_admits (readGrant_of_clean (s := s.claimed p rest) .lookup hread) hadmits,
    grant_of_no_holder (s := s.claimed p rest) (claimed_hasRoom h.room) hholder]
  rfl

theorem exec_lookup_of_clean_not_admits (h : s.Serves p r rest)
    (hchecks : s.lookupChecks p r = .live w) (hread : Readable s w [])
    (hadmits : admits (s.word w).written.rights r.kind = false) :
    exec .lookup s = .next ((s.claimed p rest).sent p (.deny r.agent r.tag .rights)) := by
  rw [exec_lookup_of_live h hchecks,
    answerLive_of_not_admits (readGrant_of_clean (s := s.claimed p rest) .lookup hread) hadmits,
    deny_eq_sent (claimed_hasRoom h.room)]

/-- The correction of a word leaves the arbiter's choice and the request as they are. -/
theorem serves_corrected (h : s.Serves p r rest) : (s.corrected w).Serves p r rest :=
  ⟨h.serving, h.port, h.room, h.head⟩

theorem exec_lookup_of_single (h : s.Serves p r rest) (hchecks : s.lookupChecks p r = .live w)
    (hstate : (s.window w).state = .live) {b : CodeBit} (hread : Readable s w [b]) :
    exec .lookup s = exec .lookup (s.corrected w) := by
  rw [exec_lookup_of_live h hchecks, exec_lookup_of_live (serves_corrected h) hchecks,
    answerLive_of_single (s := s.claimed p rest) hstate hread]
  rfl

theorem exec_lookup_of_unread {t : State} (h : s.Serves p r rest)
    (hchecks : s.lookupChecks p r = .live w)
    (hread : (s.claimed p rest).readGrant .lookup w = (t, none)) (hroom : t.HasRoom p) :
    exec .lookup s = .next (t.sent p (.deny r.agent r.tag .poisoned)) := by
  rw [exec_lookup_of_live h hchecks, answerLive_of_unread hread, deny_eq_sent hroom]

end

/-- Settles O30: the DENY of the checks, and the two answers at a word that reads Clean. -/
theorem lookupDeniesOrGrants : Obligations.LookupDeniesOrGrants := by
  refine ⟨fun _ _ _ => ⟨rfl, rfl, rfl⟩, fun s p r rest hserving hport hroom hin => ?_⟩
  have hserves : s.Serves p r rest := ⟨hserving, hport, hroom, hin⟩
  exact ⟨fun _ hchecks => exec_lookup_of_deny hserves hchecks, fun w hchecks hread =>
    ⟨exec_lookup_of_clean_holder hserves hchecks hread,
      exec_lookup_of_clean_no_holder hserves hchecks hread,
      exec_lookup_of_clean_not_admits hserves hchecks hread⟩⟩

/-- Settles O31: a poisoned window is not read; a single error is answered as the corrected state is, in
which the word reads Clean (O30); a double error hands no values. -/
theorem lookupOfAnErroredWindow : Obligations.LookupOfAnErroredWindow := by
  intro s p r rest w hserving hport hroom hin hchecks hstate taken denied
  have hserves : s.Serves p r rest := ⟨hserving, hport, hroom, hin⟩
  have hroom' : (s.claimed p rest).HasRoom p := claimed_hasRoom hroom
  refine ⟨fun hpoisoned => ?_, fun b hread => exec_lookup_of_single hserves hchecks hstate hread,
    fun b hread hholder hadmits => ?_, fun b c hread => ?_⟩
  · have hunread : (s.claimed p rest).readGrant .lookup w = (s.claimed p rest, none) :=
      readGrant_of_poisoned _ (used_of_live hstate) hpoisoned
    exact exec_lookup_of_unread hserves hchecks hunread hroom'
  · have hclean := exec_lookup_of_clean_holder (serves_corrected hserves) hchecks
      (readable_corrected hread) (by rwa [corrected_word]) hholder
    rw [exec_lookup_of_single hserves hchecks hstate hread, hclean, corrected_word]
    rfl
  · exact exec_lookup_of_unread hserves hchecks
      (readGrant_eq_poisonedBy (s := s.claimed p rest) hstate hread) hroom'

end Sys2Proof.Machine
end

section
/-! SUPPORT. The parking pool (R62, R63): what each shared operation does to the entries and their lists. -/

namespace Sys2Proof.Machine

/-! ## The pool and its lists -/

/-- The entries of the parking pool and the lists they are on (R62, R63). -/
structure Parking where
  pool       : Table 64 PoolEntry
  parkOrders : Table 4096 (List EntryId)
  replayList : List EntryId

def State.parking (s : State) : Parking := ⟨s.pool, s.parkOrders, s.replayList⟩

/-- The lists are a matter of the pool alone. -/
theorem poolListed_of_parking {s t : State} (ht : t.parking = s.parking) (h : PoolListed s) :
    PoolListed t := by
  cases s
  cases t
  cases ht
  exact h

/-- A pool in which every entry is FREE and every list is empty. -/
theorem poolListed_of_empty {s : State} (h : s.parking = ⟨[], [], []⟩) : PoolListed s := by
  refine poolListed_of_parking (s := State.reset) h
    ⟨List.nodup_nil, fun _ => List.nodup_nil, fun e => ?_, fun e w => ?_⟩
  · exact iff_of_false List.not_mem_nil nofun
  · exact iff_of_false List.not_mem_nil nofun

/-! ## An entry off its list, and on a list again -/

/-- Entry `e` is on no list, and every other entry is on the list that its state names (R63). -/
structure ListedBut (s : State) (e : EntryId) : Prop where
  replay_nodup : s.replayList.Nodup
  park_nodup : ∀ w, (s.parkOrder w).Nodup
  mem_replay : ∀ d, d ∈ s.replayList ↔ d ≠ e ∧ (s.entry d).state = .replay
  mem_park : ∀ d w, d ∈ s.parkOrder w ↔
    d ≠ e ∧ (s.entry d).state = .parked ∧ (s.entry d).window = w

section
variable {s : State} {e : EntryId}

theorem entry_ne_of_state {d : EntryId} {x y : EntryState} (hd : (s.entry d).state = x)
    (he : (s.entry e).state = y) (h : x ≠ y) : d ≠ e := by
  rintro rfl
  exact h (hd.symm.trans he)

theorem listedBut_iff_of_free (hfree : (s.entry e).state = .free) : ListedBut s e ↔ PoolListed s := by
  have hreplay : ∀ d, d ≠ e ∧ (s.entry d).state = .replay ↔ (s.entry d).state = .replay :=
    fun d => and_iff_right_of_imp fun hd => entry_ne_of_state hd hfree (by decide)
  have hpark : ∀ d w, d ≠ e ∧ (s.entry d).state = .parked ∧ (s.entry d).window = w ↔
      (s.entry d).state = .parked ∧ (s.entry d).window = w :=
    fun d w => and_iff_right_of_imp fun hd => entry_ne_of_state hd.1 hfree (by decide)
  constructor
  · rintro ⟨hr, hp, hmr, hmp⟩
    exact ⟨hr, hp, fun d => (hmr d).trans (hreplay d), fun d w => (hmp d w).trans (hpark d w)⟩
  · rintro ⟨hr, hp, hmr, hmp⟩
    exact ⟨hr, hp, fun d => (hmr d).trans (hreplay d).symm, fun d w => (hmp d w).trans (hpark d w).symm⟩

/-- An entry taken off the replay list is on no list. -/
theorem listedBut_of_replay (h : PoolListed s) (hstate : (s.entry e).state = .replay) :
    ListedBut { s with replayList := s.replayList.erase e } e := by
  obtain ⟨hr, hp, hmr, hmp⟩ := h
  refine ⟨hr.erase e, hp, fun d => ?_, fun d w => ?_⟩
  · exact hr.mem_erase_iff.trans (and_congr_right fun _ => hmr d)
  · exact (hmp d w).trans (and_iff_right_of_imp fun hd => entry_ne_of_state hd.1 hstate (by decide)).symm

/-- An entry taken off its window's park order is on no list. -/
theorem listedBut_of_parked (h : PoolListed s) (hstate : (s.entry e).state = .parked) :
    ListedBut (s.setParkOrder (s.entry e).window ((s.parkOrder (s.entry e).window).erase e)) e := by
  obtain ⟨hr, hp, hmr, hmp⟩ := h
  refine ⟨hr, fun w => ?_, fun d => ?_, fun d w => ?_⟩
  · rw [State.setParkOrder_parkOrder]
    split
    · exact (hp _).erase e
    · exact hp w
  · exact (hmr d).trans (and_iff_right_of_imp fun hd => entry_ne_of_state hd hstate (by decide)).symm
  · rw [State.setParkOrder_parkOrder, State.setParkOrder_entry]
    split
    · next hw =>
      subst hw
      rw [(hp _).mem_erase_iff, hmp]
    · next hw =>
      refine (hmp d w).trans (and_iff_right_of_imp ?_).symm
      rintro ⟨-, hd⟩ rfl
      exact hw hd.symm

theorem ListedBut.setEntry (h : ListedBut s e) (r : PoolEntry) : ListedBut (s.setEntry e r) e := by
  refine ⟨h.replay_nodup, h.park_nodup, fun d => ?_, fun d w => ?_⟩
  · refine (h.mem_replay d).trans (and_congr_right fun hd => ?_)
    rw [State.setEntry_entry, if_neg hd]
  · refine (h.mem_park d w).trans (and_congr_right fun hd => ?_)
    rw [State.setEntry_entry, if_neg hd]

/-- An entry on no list that is freed leaves every entry on its lists. -/
theorem ListedBut.listed_of_freed (h : ListedBut s e) {r : PoolEntry} (hr : r.state = .free) :
    PoolListed (s.setEntry e r) :=
  (listedBut_iff_of_free (by rw [State.setEntry_entry, if_pos rfl, hr])).mp (h.setEntry r)

/-- An entry on no list that is parked is on its window's park order alone (R63). -/
theorem ListedBut.listed_of_parkEntry (h : ListedBut s e) (r : Request) (p : PortId) (w : WindowId) :
    PoolListed (s.parkEntry e r p w) := by
  have hentry : ∀ d, (s.parkEntry e r p w).entry d
      = if d = e then ⟨.parked, r, p, w⟩ else s.entry d :=
    fun d => State.setEntry_entry s e d ⟨.parked, r, p, w⟩
  have horder : ∀ v, (s.parkEntry e r p w).parkOrder v
      = if v = w then s.parkOrder w ++ [e] else s.parkOrder v :=
    fun v => State.setParkOrder_parkOrder _ w v _
  have hoff : ∀ v, e ∉ s.parkOrder v := fun v hv => ((h.mem_park e v).mp hv).1 rfl
  refine ⟨h.replay_nodup, fun v => ?_, fun d => ?_, fun d v => ?_⟩
  · rw [horder]
    split
    · exact (h.park_nodup w).append (List.nodup_singleton e) (List.disjoint_singleton.mpr (hoff w))
    · exact h.park_nodup v
  · rw [hentry]
    refine (h.mem_replay d).trans ?_
    by_cases hd : d = e <;> simp [hd]
  · rw [hentry, horder]
    by_cases hd : d = e
    · subst hd
      by_cases hv : v = w
      · simp [hv]
      · simp [hv, hoff v, Ne.symm hv]
    · by_cases hv : v = w
      · simp [hv, hd, h.mem_park d w]
      · simp [hv, hd, h.mem_park d v]

/-! ## Entries freed (R62, R69, R70) -/

theorem releaseEntry_listed (h : PoolListed s) : PoolListed (s.releaseEntry e) := by
  unfold State.releaseEntry
  dsimp only
  split
  · next hfree => exact ((listedBut_iff_of_free hfree).mpr h).listed_of_freed rfl
  · next hparked => exact (listedBut_of_parked h hparked).listed_of_freed rfl
  · next hreplay => exact (listedBut_of_replay h hreplay).listed_of_freed rfl

theorem dropEntries_listed (h : PoolListed s) (pick : PoolEntry → Bool) :
    PoolListed (s.dropEntries pick) := by
  refine foldl_invariant PoolListed _ (fun t d ht => ?_) allEntries s h
  split
  · exact releaseEntry_listed ht
  · exact ht

end

/-! ## A park order moved to the replay list (R65) -/

/-- What each entry holds after a list of entries is put in state REPLAY. -/
theorem foldl_replay_entry (l : List EntryId) (s : State) (d : EntryId) :
    (l.foldl (fun s e => s.setEntry e { s.entry e with state := .replay }) s).entry d
      = if d ∈ l then { s.entry d with state := .replay } else s.entry d := by
  induction l generalizing s with
  | nil => simp
  | cons e l ih =>
    rw [List.foldl_cons, ih, State.setEntry_entry]
    by_cases hd : d = e
    · subst hd
      simp
    · simp [hd]

theorem foldl_replay_parkOrders (l : List EntryId) (s : State) :
    (l.foldl (fun s e => s.setEntry e { s.entry e with state := .replay }) s).parkOrders = s.parkOrders :=
  foldl_keeps State.parkOrders (fun s e => s.setEntry e { s.entry e with state := .replay })
    (fun _ _ => rfl) l s

theorem movePark_entry (s : State) (w : WindowId) (d : EntryId) :
    (s.movePark w).entry d
      = if d ∈ s.parkOrder w then { s.entry d with state := .replay } else s.entry d :=
  foldl_replay_entry _ s d

theorem movePark_parkOrder (s : State) (w v : WindowId) :
    (s.movePark w).parkOrder v = if v = w then [] else s.parkOrder v := by
  refine (State.setParkOrder_parkOrder _ w v []).trans ?_
  rw [State.parkOrder_eq, foldl_replay_parkOrders, ← State.parkOrder_eq]

theorem movePark_replayList (s : State) (w : WindowId) :
    (s.movePark w).replayList = s.replayList ++ s.parkOrder w := by
  refine congrArg (· ++ s.parkOrder w) ?_
  exact foldl_keeps State.replayList
    (fun s e => s.setEntry e { s.entry e with state := .replay }) (fun _ _ => rfl) _ s

theorem movePark_listed {s : State} (h : PoolListed s) (w : WindowId) : PoolListed (s.movePark w) := by
  obtain ⟨hr, hp, hmr, hmp⟩ := h
  have hapart : ∀ d ∈ s.replayList, d ∉ s.parkOrder w := fun d hd hd' => by
    have hparked := ((hmp d w).mp hd').1
    rw [(hmr d).mp hd] at hparked
    cases hparked
  refine ⟨?_, fun v => ?_, fun d => ?_, fun d v => ?_⟩
  · rw [movePark_replayList]
    exact hr.append (hp w) hapart
  · rw [movePark_parkOrder]
    split
    · exact List.nodup_nil
    · exact hp v
  · rw [movePark_replayList, movePark_entry, List.mem_append, hmr]
    by_cases hd : d ∈ s.parkOrder w <;> simp [hd]
  · rw [movePark_parkOrder, movePark_entry]
    by_cases hd : d ∈ s.parkOrder w
    · have hwindow := ((hmp d w).mp hd).2
      by_cases hv : v = w
      · simp [hv, hd]
      · simp [hv, hd, hmp d v, hwindow, Ne.symm hv]
    · by_cases hv : v = w
      · simpa [hv, hd] using (hmp d w).not.mp hd
      · simp [hv, hd, hmp d v]

end Sys2Proof.Machine
end

section
/-! SUPPORT. The operations that leave the parking pool as it is. -/

namespace Sys2Proof.Machine

/-! ## Placement, holder sets, slots, completions -/

@[simp] theorem place_parking (s : State) (p : PortId) (m : OutMsg) :
    (s.place p m).parking = s.parking := by
  unfold State.place; split <;> rfl

@[simp] theorem addHolder_parking (s : State) (w : WindowId) (a : AgentId) :
    (s.addHolder w a).parking = s.parking := by
  unfold State.addHolder; split <;> rfl

@[simp] theorem dropHolder_parking (s : State) (w : WindowId) (a : AgentId) :
    (s.dropHolder w a).parking = s.parking := by
  unfold State.dropHolder; split <;> rfl

@[simp] theorem dropHolders_parking (s : State) (w : WindowId) (x : AgentSet) :
    (s.dropHolders w x).parking = s.parking :=
  foldl_keeps _ _ (fun _ _ => dropHolder_parking _ _ _) _ _

@[simp] theorem dropAnswer_parking (s : State) (k : SlotId) (a : AgentId) :
    (s.dropAnswer k a).parking = s.parking := by
  unfold State.dropAnswer
  split
  · exact dropHolder_parking _ _ _
  · rfl

@[simp] theorem post_parking (s : State) (c : Completion) : (s.post c).parking = s.parking := rfl

@[simp] theorem postAll_parking (s : State) (cs : List Completion) :
    (s.postAll cs).parking = s.parking := foldl_keeps State.parking State.post post_parking cs s

@[simp] theorem clearFences_parking (s : State) : s.clearFences.parking = s.parking := rfl

@[simp] theorem setAgent_parking (s : State) (a : AgentId) (r : Agent) :
    (s.setAgent a r).parking = s.parking := rfl

@[simp] theorem purgeSet_parking (s : State) (x : AgentSet) :
    ({ s with purgeSet := x } : State).parking = s.parking := rfl

/-! ## What a change does to the records, and grant-part reads -/

@[simp] theorem applyAdd_parking (s : State) (w : WindowId) (c : ContextId) (b : LocalPage)
    (v : NewValues) : (s.applyAdd w c b v).parking = s.parking :=
  dropHolders_parking s w (s.window w).holders

@[simp] theorem applyClose_parking (s : State) (c : ContextId) :
    (s.applyClose c).parking = s.parking :=
  foldl_keeps State.parking (fun s w => (s.dropHolders w (s.window w).holders).freeRecord w)
    (fun s w => dropHolders_parking s w _) (s.windowList c) s

@[simp] theorem leaveWindow_parking (s : State) (a : AgentId) (w : WindowId) :
    (s.leaveWindow a w).parking = s.parking := by
  unfold State.leaveWindow
  dsimp only
  split
  · split <;> exact dropHolder_parking s w a
  · exact dropHolder_parking s w a

@[simp] theorem leaveHoldings_parking (s : State) (c : ContextId) (a : AgentId) :
    (s.leaveHoldings c a).parking = s.parking :=
  foldl_keeps _ _ (fun _ _ => leaveWindow_parking _ _ _) _ _

@[simp] theorem changeEffect_parking (s : State) (x : ChangeSubject) (v : NewValues) :
    (s.changeEffect x v).parking = s.parking := by
  cases x with
  | modify w => rfl
  | retire w => rfl
  | close c => exact applyClose_parking s c
  | leave c a => exact leaveHoldings_parking s c a

@[simp] theorem leaveFirst_parking (s : State) (k : SlotId) :
    (s.leaveFirst k).parking = s.parking := by
  unfold State.leaveFirst
  split
  · split
    · exact leaveHoldings_parking s _ _
    all_goals rfl
  · rfl

@[simp] theorem spoil_parking (s : State) (w : WindowId) : (s.spoil w).parking = s.parking := by
  unfold State.spoil; split <;> rfl

@[simp] theorem readGrant_parking (s : State) (d : Detector) (w : WindowId) :
    (s.readGrant d w).1.parking = s.parking := by
  unfold State.readGrant
  split
  · rfl
  · split
    · rfl
    · rfl
    · exact spoil_parking _ w

@[simp] theorem answerLive_parking (s : State) (p : PortId) (r : Request) (w : WindowId) :
    (s.answerLive p r w).parking = s.parking := by
  unfold State.answerLive
  dsimp only
  split
  · exact (place_parking _ _ _).trans (readGrant_parking _ _ _)
  · split
    · exact ((place_parking _ _ _).trans (addHolder_parking _ _ _)).trans (readGrant_parking _ _ _)
    · exact (place_parking _ _ _).trans (readGrant_parking _ _ _)

/-! ## The recall engine -/

@[simp] theorem firstRecall_parking (s : State) (kept : Option AgentId) (k : SlotId) (a : AgentId) :
    (s.firstRecall kept k a).parking = s.parking := by
  unfold State.firstRecall
  split
  · exact place_parking _ _ _
  · rfl

@[simp] theorem fillRecords_parking (s : State) (k : SlotId) (x : ChangeSubject) :
    (s.fillRecords k x).parking = s.parking := by
  cases x with
  | modify w => exact dropHolders_parking _ w _
  | retire w => exact dropHolders_parking _ w _
  | close c => rfl
  | leave c a => rfl

@[simp] theorem fillSlot_parking (s : State) (kept : Option AgentId) (k : SlotId) (x : ChangeSubject)
    (v : NewValues) (tag : Half) : (s.fillSlot kept k x v tag).parking = s.parking :=
  (foldl_keeps State.parking (fun s a => s.firstRecall kept k a)
    (fun _ _ => firstRecall_parking _ _ _ _) _ _).trans
    (fillRecords_parking { s with serial := s.nextSerial } k x)

@[simp] theorem takeReminder_parking (s : State) (k : SlotId) :
    (s.takeReminder k).parking = s.parking := by
  refine foldl_keeps State.parking (fun s a => s.remind k a) (fun t a => ?_) _ _
  unfold State.remind
  split
  · exact place_parking _ _ _
  · rfl

@[simp] theorem lapse_parking (s : State) (k : SlotId) : (s.lapse k).parking = s.parking := by
  unfold State.lapse
  dsimp only
  split
  · exact dropHolders_parking _ _ _
  · rfl

@[simp] theorem tickSlot_parking (s : State) (k : SlotId) : (s.tickSlot k).parking = s.parking := by
  unfold State.tickSlot; dsimp only; split <;> rfl

/-! ## Purges and fences -/

@[simp] theorem sendFence_parking (s : State) (a : AgentId) : (s.sendFence a).parking = s.parking := by
  unfold State.sendFence
  split
  · split
    · exact place_parking _ _ _
    · split <;> rfl
  · rfl

@[simp] theorem quitSlot_parking (s : State) (a : AgentId) (k : SlotId) :
    (s.quitSlot a k).parking = s.parking := by
  unfold State.quitSlot
  split
  · exact dropAnswer_parking s k a
  · rfl

@[simp] theorem reachTarget_parking (s : State) (kept : Option AgentId) (a : AgentId) :
    (s.reachTarget kept a).parking = s.parking := by
  unfold State.reachTarget
  dsimp only
  split
  · split
    · exact place_parking _ _ _
    · rfl
  all_goals rfl

@[simp] theorem endPurges_parking (s : State) (kept : Option AgentId) :
    (s.endPurges kept).parking = s.parking := by
  refine foldl_keeps _ _ (fun t a => ?_) _ _
  unfold State.endPurge
  split
  · exact reachTarget_parking t kept a
  · rfl

/-! ## The links -/

@[simp] theorem enterUp_parking (s : State) (p : PortId) : (s.enterUp p).parking = s.parking := by
  refine foldl_keeps State.parking (fun s a => s.announceFence p a) (fun t a => ?_) _ _
  unfold State.announceFence
  dsimp only
  split
  · exact place_parking _ _ _
  · rfl

@[simp] theorem refillOwed_parking (s : State) (p : PortId) (a : AgentId) :
    (s.refillOwed p a).parking = s.parking := by
  unfold State.refillOwed
  dsimp only
  split
  · split
    · exact place_parking _ _ _
    · split
      · exact place_parking _ _ _
      · rfl
  · rfl

@[simp] theorem refillSlot_parking (s : State) (p : PortId) (k : SlotId) :
    (s.refillSlot p k).parking = s.parking := by
  unfold State.refillSlot
  split
  · refine foldl_keeps State.parking (fun s a => s.refillRecall p k a) (fun t a => ?_) _ _
    unfold State.refillRecall
    split
    · exact place_parking t p _
    · rfl
  · rfl

/-! ## The command engine -/

@[simp] theorem openContext_parking (s : State) (r : CmdRecord) :
    (s.openContext r).parking = s.parking := by
  unfold State.openContext
  split
  · rfl
  split
  · rfl
  split <;> rfl

@[simp] theorem joinContext_parking (s : State) (r : CmdRecord) :
    (s.joinContext r).parking = s.parking := by
  unfold State.joinContext
  split
  · rfl
  split
  · rfl
  split <;> rfl

@[simp] theorem addChecked_parking (s : State) (r : CmdRecord) (c : ContextId) (v : NewValues) :
    (s.addChecked r c v).parking = s.parking := by
  unfold State.addChecked
  dsimp only
  split
  · rfl
  split
  · rfl
  split
  · rfl
  split
  · rfl
  · next w _ => exact applyAdd_parking s.takeCommand w c (localBaseOperand r) v

@[simp] theorem addWindow_parking (s : State) (r : CmdRecord) :
    (s.addWindow r).parking = s.parking := by
  unfold State.addWindow
  split
  · split
    · exact addChecked_parking s r _ _
    · rfl
  · rfl

@[simp] theorem unfenceAgent_parking (s : State) (r : CmdRecord) :
    (s.unfenceAgent r).parking = s.parking := by
  unfold State.unfenceAgent
  dsimp only
  split
  · rfl
  split
  · refine (post_parking _ _).trans ?_
    split
    · exact place_parking _ _ _
    · rfl
  · rfl

@[simp] theorem queryWindow_parking (s : State) (r : CmdRecord) :
    (s.queryWindow r).parking = s.parking := by
  unfold State.queryWindow
  split
  · rfl
  · exact readGrant_parking s.takeCommand .query _

@[simp] theorem queryAgent_parking (s : State) (r : CmdRecord) :
    (s.queryAgent r).parking = s.parking := by
  unfold State.queryAgent; split <;> rfl

@[simp] theorem queryContext_parking (s : State) (r : CmdRecord) :
    (s.queryContext r).parking = s.parking := by
  unfold State.queryContext; split <;> rfl

@[simp] theorem enablePort_parking (s : State) (r : CmdRecord) :
    (s.enablePort r).parking = s.parking := by
  unfold State.enablePort
  split
  · rfl
  split <;> rfl

@[simp] theorem postPort_parking (s : State) (r : CmdRecord) (p : PortId) :
    (s.postPort r p).parking = s.parking := rfl

/-! ## Time and registers -/

@[simp] theorem tickScrubber_parking (s : State) : s.tickScrubber.parking = s.parking := by
  unfold State.tickScrubber
  split
  · rfl
  split
  · rfl
  split
  · exact readGrant_parking s .scrub s.scrubPosition
  · rfl

@[simp] theorem tickWalk_parking (s : State) : s.tickWalk.parking = s.parking := by
  unfold State.tickWalk; split <;> rfl

@[simp] theorem stage_parking (s : State) (value : Word) : (s.stage value).parking = s.parking := by
  unfold State.stage; split <;> rfl

@[simp] theorem postCommand_parking (s : State) : s.postCommand.parking = s.parking := by
  unfold State.postCommand; split <;> rfl

@[simp] theorem readCompletion_parking (s : State) : s.readCompletion.parking = s.parking := by
  unfold State.readCompletion; split <;> rfl

@[simp] theorem popCompletion_parking (s : State) : s.popCompletion.parking = s.parking := by
  unfold State.popCompletion; split <;> rfl

/-- The soft reset frees every entry and empties every list (R72, R138). -/
theorem softReset_parking (s : State) : s.softReset.parking = ⟨[], [], []⟩ := by
  have hports : ∀ t : State, (allPorts.foldl State.softResetPort t).parking = t.parking :=
    foldl_keeps State.parking State.softResetPort (fun t p => by
      unfold State.softResetPort; split <;> rfl) allPorts
  have hbegin : ∀ t : State, t.beginWalk.parking = t.parking := fun _ => rfl
  unfold State.softReset
  exact ((hbegin _).trans (hports _)).trans rfl

end Sys2Proof.Machine
end

section
/-! SUPPORT. Every step keeps each pool entry on the list its state names (O55). -/

namespace Sys2Proof.Machine

/-! ## Changes that complete, and the end of a claim (R65, R91) -/

section
variable {s : State}

theorem moveParkOf_listed (h : PoolListed s) (x : ChangeSubject) : PoolListed (s.moveParkOf x) := by
  unfold State.moveParkOf
  split
  · exact movePark_listed h _
  · exact h

theorem completeSlot_listed (h : PoolListed s) (k : SlotId) : PoolListed (s.completeSlot k).1 :=
  have heffect := poolListed_of_parking (changeEffect_parking s (s.slot k).subject (s.slot k).newValues) h
  have hmoved := moveParkOf_listed heffect (s.slot k).subject
  poolListed_of_parking rfl hmoved

theorem completeEmptied_listed (h : PoolListed s) : PoolListed s.completeEmptied.1 := by
  have hleave : (allSlots.foldl State.leaveFirst s).parking = s.parking :=
    foldl_keeps State.parking State.leaveFirst leaveFirst_parking allSlots s
  unfold State.completeEmptied
  generalize allSlots.foldl State.leaveFirst s = t at hleave ⊢
  refine foldl_invariant (fun x : State × List Completion => PoolListed x.1) completeIfEmptied
    (fun x k hx => ?_) allSlots (t, []) (poolListed_of_parking hleave h)
  unfold completeIfEmptied
  split
  · exact completeSlot_listed hx k
  · exact hx

theorem settle_listed (h : PoolListed s) (kept : Option AgentId) (late : Bool) :
    PoolListed (s.settle kept late) := by
  refine poolListed_of_parking ?_ (completeEmptied_listed h)
  unfold State.settle
  exact ((postAll_parking _ _).trans (clearFences_parking _)).trans (endPurges_parking _ kept)

theorem carryOut_listed (h : PoolListed s) (kept : Option AgentId) (late : Bool) (r : CmdRecord)
    (j : Judgement) : PoolListed (s.carryOut kept late r j) := by
  have htake : PoolListed s.takeCommand := h
  unfold State.carryOut
  split
  · exact htake
  · next x v => exact poolListed_of_parking (changeEffect_parking s.takeCommand x v) htake
  · next x v =>
    split
    · exact h
    · next k _ =>
      have hfill := fillSlot_parking s.takeCommand kept k x v (recordTag r)
      exact settle_listed (poolListed_of_parking hfill htake) kept late

theorem reconsider_listed (h : PoolListed s) (kept : Option AgentId) :
    PoolListed (s.reconsider kept) := by
  unfold State.reconsider
  split
  · split
    · exact carryOut_listed h kept true _ _
    · exact h
  · exact h

theorem finish_listed (h : PoolListed s) (caller : Option AgentId) : PoolListed (s.finish caller) := by
  unfold State.finish
  exact reconsider_listed (settle_listed h _ false) _

/-! ## Purge starts and entries into REINIT (R69, R70) -/

theorem purgeStart_listed (h : PoolListed s) (a : AgentId) (x : PurgeTarget) :
    PoolListed (s.purgeStart a x) := by
  have hquit : ∀ t : State, (allSlots.foldl (fun s k => s.quitSlot a k) t).parking = t.parking :=
    foldl_keeps State.parking (fun s k => s.quitSlot a k) (fun t k => quitSlot_parking t a k) allSlots
  have hfence : ∀ t : State, (if x = .fenced then t.sendFence a else t).parking = t.parking := fun t => by
    split
    · exact sendFence_parking t a
    · rfl
  unfold State.purgeStart
  exact poolListed_of_parking ((purgeSet_parking _ _).trans (hquit _))
    (dropEntries_listed (poolListed_of_parking ((hfence _).trans (setAgent_parking s a _)) h) _)

theorem fence_listed (h : PoolListed s) (a : AgentId) : PoolListed (s.fence a) := by
  unfold State.fence
  dsimp only
  split
  · exact purgeStart_listed h a _
  · split
    · exact h
    · exact poolListed_of_parking ((sendFence_parking _ a).trans (setAgent_parking s a _)) h
  · exact h
  · exact h

theorem depart_listed (h : PoolListed s) (a : AgentId) : PoolListed (s.depart a) := by
  unfold State.depart
  dsimp only
  split
  · exact purgeStart_listed h a _
  · split <;> exact h
  all_goals exact h

theorem losePorts_listed (h : PoolListed s) (p : PortId) : PoolListed (s.losePorts p) := by
  refine foldl_invariant PoolListed _ (fun t a ht => ?_) allAgents s h
  unfold State.losePort
  split
  · exact poolListed_of_parking (setAgent_parking _ a _) (depart_listed ht a)
  · exact ht

theorem enterReinit_listed (h : PoolListed s) (p : PortId) (d : Destination) :
    PoolListed (s.enterReinit p d) :=
  finish_listed (losePorts_listed (dropEntries_listed (s := s.discardLink p d) h _) p) none

theorem violation_listed (h : PoolListed s) (p : PortId) (kind : Violation) :
    PoolListed (s.violation p kind) :=
  enterReinit_listed (s := { s with linkBank := recordLink s.linkBank p kind }) h p .training

/-! ## Messages and frames received -/

theorem receiveReady_listed (h : PoolListed s) (p : PortId) (n : Nat) :
    PoolListed (s.receiveReady p n) := by
  unfold State.receiveReady
  dsimp only
  split
  · split
    · exact poolListed_of_parking (enterUp_parking _ p) h
    · exact h
  · exact violation_listed h p _

theorem receiveCredit_listed (h : PoolListed s) (p : PortId) (n : Nat) :
    PoolListed (s.receiveCredit p n) := by
  unfold State.receiveCredit
  dsimp only
  split
  · exact violation_listed h p _
  · split
    · exact h
    · exact violation_listed h p _

theorem receiveReinit_listed (h : PoolListed s) (p : PortId) : PoolListed (s.receiveReinit p) := by
  unfold State.receiveReinit
  dsimp only
  split
  · exact enterReinit_listed h p _
  · exact h

theorem receiveAgent_listed (h : PoolListed s) (p : PortId) (m : InMsg) :
    PoolListed (s.receiveAgent p m) := by
  unfold State.receiveAgent
  dsimp only
  split
  · split
    · exact violation_listed h p _
    · exact h
  · exact violation_listed h p _

theorem receive_listed (h : PoolListed s) (p : PortId) (f : Frame) : PoolListed (s.receive p f) := by
  unfold State.receive
  split
  · split
    · exact violation_listed h p _
    · exact receiveReady_listed h p _
    · exact receiveCredit_listed h p _
    · exact receiveReinit_listed h p
    · exact receiveAgent_listed h p _
  · exact h

theorem takeHello_listed (h : PoolListed s) (p : PortId) (a : AgentId) :
    PoolListed (s.takeHello p a) := by
  have hplace : ∀ (r : Agent) (m : OutMsg), PoolListed ((s.setAgent a r).place p m) :=
    fun r m => poolListed_of_parking (place_parking (s.setAgent a r) p m) h
  unfold State.takeHello
  dsimp only
  split
  · exact hplace _ _
  split
  · exact hplace _ _
  split
  · exact poolListed_of_parking (place_parking s p _) h
  split
  · exact finish_listed (purgeStart_listed h a _) _
  split
  · exact hplace _ _
  split
  · exact hplace _ _
  split <;> exact h

theorem takeGoodbye_listed (h : PoolListed s) (p : PortId) (a : AgentId) :
    PoolListed (s.takeGoodbye p a) := by
  unfold State.takeGoodbye
  split
  · exact finish_listed (depart_listed h a) none
  · exact h

theorem takeRelease_listed (h : PoolListed s) (p : PortId) (a : AgentId) (w : WindowId)
    (version : Half) : PoolListed (s.takeRelease p a w version) := by
  have hdrop := poolListed_of_parking (dropHolder_parking s w a) h
  unfold State.takeRelease
  dsimp only
  split
  · split
    · exact finish_listed (s := (s.dropHolder w a).dropPending _ a) hdrop none
    · exact finish_listed hdrop none
  · exact h

theorem takeAck_listed (h : PoolListed s) (p : PortId) (a : AgentId) (serial : Half) :
    PoolListed (s.takeAck p a serial) := by
  unfold State.takeAck
  split
  · exact finish_listed (poolListed_of_parking (dropAnswer_parking s _ a) h) none
  · exact h

/-! ## Lookups (R62 to R67) -/

theorem freeEntry_state {e : EntryId} (h : s.freeEntry = some e) : (s.entry e).state = .free := by
  simpa using List.find?_some h

theorem serve_listed (h : PoolListed s) (p : PortId) (r : Request) : PoolListed (s.serve p r) := by
  unfold State.serve
  dsimp only
  split
  · exact poolListed_of_parking (place_parking _ _ _) h
  · unfold State.park
    split
    · next hfree =>
      exact ((listedBut_iff_of_free (freeEntry_state hfree)).mpr h).listed_of_parkEntry r p _
    · exact poolListed_of_parking (place_parking _ _ _) h
  · exact poolListed_of_parking (answerLive_parking _ _ _ _) h

/-- An entry on no list that is answered is freed, whatever the answer did outside the pool (R66). -/
theorem ListedBut.listed_of_closeEntry {t : State} {e : EntryId} (h : ListedBut s e)
    (ht : t.parking = s.parking) : PoolListed (t.closeEntry e) := by
  have hclosed : (t.closeEntry e).parking = (s.closeEntry e).parking := by
    cases s
    cases t
    cases ht
    rfl
  exact poolListed_of_parking hclosed (h.listed_of_freed rfl)

theorem replayHead_mem {e : EntryId} (h : s.replayHead = some e) : e ∈ s.replayList := by
  unfold State.replayHead at h
  split at h
  · next hlist =>
    split at h
    · cases h
      rw [hlist]
      exact List.mem_cons_self
    · cases h
  · cases h

theorem serveReplay_listed (h : PoolListed s) {e : EntryId} (he : s.replayHead = some e) :
    PoolListed (s.serveReplay e) := by
  have hoff := listedBut_of_replay h ((h.2.2.1 e).mp (replayHead_mem he))
  unfold State.serveReplay
  dsimp only
  split
  · exact hoff.listed_of_closeEntry (place_parking _ _ _)
  · exact hoff.listed_of_parkEntry _ _ _
  · exact hoff.listed_of_closeEntry (answerLive_parking _ _ _ _)

/-! ## The timers -/

theorem timeOut_listed (h : PoolListed s) (k : SlotId) : PoolListed (s.timeOut k) :=
  finish_listed (foldl_invariant PoolListed _ (fun _ a ht => fence_listed ht a) _ _
    (poolListed_of_parking (lapse_parking s k) h)) none

theorem catchUp_listed (h : PoolListed s) : PoolListed s.catchUp := by
  unfold State.catchUp
  split
  · split <;> exact h
  · refine foldl_invariant PoolListed State.takeDue (fun t k ht => ?_) allSlots s h
    unfold State.takeDue
    split
    · exact ht
    · exact poolListed_of_parking (takeReminder_parking t k) ht
    · exact timeOut_listed ht k

/-! ## Commands -/

theorem fenceAgent_listed (h : PoolListed s) (r : CmdRecord) : PoolListed (s.fenceAgent r) := by
  unfold State.fenceAgent
  dsimp only
  split
  · exact h
  split
  · exact fence_listed (s := s.takeCommand) h _
  · next a _ _ =>
    have hwait : PoolListed { s.takeCommand with fenceWait := s.fenceWait ++ [⟨recordTag r, a⟩] } := h
    exact finish_listed (fence_listed hwait a) none

theorem disableLink_listed (h : PoolListed s) (p : PortId) : PoolListed (s.disableLink p) := by
  unfold State.disableLink
  split
  · exact enterReinit_listed h p _
  · exact enterReinit_listed h p _
  all_goals exact h

theorem disablePort_listed (h : PoolListed s) (r : CmdRecord) : PoolListed (s.disablePort r) := by
  unfold State.disablePort
  split
  · exact h
  · exact poolListed_of_parking (postPort_parking _ r _) (disableLink_listed (s := s.takeCommand) h _)

theorem resetPort_listed (h : PoolListed s) (r : CmdRecord) : PoolListed (s.resetPort r) := by
  unfold State.resetPort
  split
  · exact h
  split
  · exact poolListed_of_parking (postPort_parking _ r _) (enterReinit_listed (s := s.takeCommand) h _ _)
  · exact h

theorem softReset_listed (s : State) : PoolListed s.softReset := poolListed_of_empty (softReset_parking s)

theorem writeRegister_listed (h : PoolListed s) (offset : BitVec 8) (value : Word) :
    PoolListed (s.writeRegister offset value) := by
  unfold State.writeRegister
  split
  · split
    · exact softReset_listed s
    · exact h
  · exact h
  · exact h
  · exact poolListed_of_parking (stage_parking s value) h
  · exact poolListed_of_parking (postCommand_parking s) h
  · exact poolListed_of_parking (popCompletion_parking s) h
  all_goals exact h

/-! ## Claims, and every command -/

theorem whenReleased_listed {f : State → State} (h : PoolListed s) (hf : PoolListed (f s)) :
    PoolListed (s.whenReleased f) := by
  unfold State.whenReleased
  split
  · exact h
  · exact hf

theorem whenServing_listed {f : State → State} (h : PoolListed s) (hf : PoolListed (f s)) :
    PoolListed (s.whenServing f) := by
  unfold State.whenServing
  split
  · exact h
  · exact hf

theorem takeHead_listed {f : CmdRecord → State → State} (h : PoolListed s) (kind : Option CommandKind)
    (hf : ∀ r, PoolListed (f r s)) : PoolListed (s.takeHead kind f) := by
  refine whenServing_listed h ?_
  split
  · exact hf _
  · exact h

/-- A take that leaves the pool as it is. -/
theorem takeHead_listed_of_parking {f : CmdRecord → State → State} (h : PoolListed s)
    (kind : Option CommandKind) (hf : ∀ r, (f r s).parking = s.parking) :
    PoolListed (s.takeHead kind f) :=
  takeHead_listed h kind fun r => poolListed_of_parking (hf r) h

end

/-- A claim that, taken from a state in which every entry is on its lists, leaves every entry on its
lists. -/
abbrev KeepsPool (s t : State) : Prop := PoolListed s → PoolListed t

section
variable (s : State)

theorem execHello_keepsPool (p : PortId) : AnswersBy KeepsPool s (execHello p s) := by
  refine ⟨_, rfl, fun h => whenServing_listed h ?_⟩
  split
  · split
    · exact takeHello_listed (s := s.takeInbound p) h p _
    · exact h
  · exact h

theorem execGoodbye_keepsPool (p : PortId) : AnswersBy KeepsPool s (execGoodbye p s) := by
  refine ⟨_, rfl, fun h => whenServing_listed h ?_⟩
  split
  · exact takeGoodbye_listed (s := s.takeInbound p) h p _
  · exact h

theorem execRelease_keepsPool (p : PortId) : AnswersBy KeepsPool s (execRelease p s) := by
  refine ⟨_, rfl, fun h => whenServing_listed h ?_⟩
  split
  · exact takeRelease_listed (s := s.takeInbound p) h p _ _ _
  · exact h

theorem execRecallAck_keepsPool (p : PortId) : AnswersBy KeepsPool s (execRecallAck p s) := by
  refine ⟨_, rfl, fun h => whenServing_listed h ?_⟩
  split
  · exact takeAck_listed (s := s.takeInbound p) h p _ _
  · exact h

theorem execLookup_keepsPool : AnswersBy KeepsPool s (execLookup s) := by
  refine ⟨_, rfl, fun h => whenServing_listed h ?_⟩
  split
  · split
    · exact serve_listed h _ _
    · exact h
  · exact h

theorem execReplay_keepsPool : AnswersBy KeepsPool s (execReplay s) := by
  refine ⟨_, rfl, fun h => whenServing_listed h ?_⟩
  split
  · next he => exact serveReplay_listed h he
  · exact h

theorem execReadyDeparture_keepsPool (p : PortId) : AnswersBy KeepsPool s (execReadyDeparture p s) := by
  refine ⟨_, rfl, fun h => whenServing_listed h ?_⟩
  dsimp only
  split
  · split
    · exact poolListed_of_parking (enterUp_parking (s.setLane p readyFrame) p) h
    · exact h
  · exact h

theorem execReinitDeparture_keepsPool (p : PortId) :
    AnswersBy KeepsPool s (execReinitDeparture p s) := by
  refine ⟨_, rfl, fun h => whenReleased_listed h ?_⟩
  dsimp only
  split
  · split <;> exact h
  · exact h

theorem execCreditDeparture_keepsPool (p : PortId) :
    AnswersBy KeepsPool s (execCreditDeparture p s) := by
  refine ⟨_, rfl, fun h => whenReleased_listed h ?_⟩
  dsimp only
  split <;> exact h

theorem execOutboundDeparture_keepsPool (p : PortId) :
    AnswersBy KeepsPool s (execOutboundDeparture p s) := by
  refine ⟨_, rfl, fun h => whenReleased_listed h ?_⟩
  dsimp only
  split
  · exact h
  · split <;> exact h

theorem execRefill_keepsPool (p : PortId) : AnswersBy KeepsPool s (execRefill p s) := by
  have howed : ∀ t : State, (allAgents.foldl (fun s a => s.refillOwed p a) t).parking = t.parking :=
    foldl_keeps State.parking (fun s a => s.refillOwed p a) (fun t a => refillOwed_parking t p a) allAgents
  have hslots : ∀ t : State, (allSlots.foldl (fun s k => s.refillSlot p k) t).parking = t.parking :=
    foldl_keeps State.parking (fun s k => s.refillSlot p k) (fun t k => refillSlot_parking t p k) allSlots
  exact ⟨_, rfl, fun h => whenServing_listed h (poolListed_of_parking ((hslots _).trans (howed _)) h)⟩

theorem execRecallReminder_keepsPool (k : SlotId) : AnswersBy KeepsPool s (execRecallReminder k s) := by
  refine ⟨_, rfl, fun h => whenServing_listed h ?_⟩
  split
  · exact poolListed_of_parking (takeReminder_parking s k) h
  · exact h

theorem execRecallTimeout_keepsPool (k : SlotId) : AnswersBy KeepsPool s (execRecallTimeout k s) := by
  refine ⟨_, rfl, fun h => whenServing_listed h ?_⟩
  split
  · exact timeOut_listed h k
  · exact h

theorem execScrubRead_keepsPool : AnswersBy KeepsPool s (execScrubRead s) := by
  refine ⟨_, rfl, fun h => whenServing_listed h ?_⟩
  split
  · exact poolListed_of_parking (readGrant_parking s .scrub s.scrubPosition) h
  · exact h

theorem execPurgeVisit_keepsPool : AnswersBy KeepsPool s (execPurgeVisit s) := by
  have hmove : ∀ t : State, PoolListed t → PoolListed { t with walkPosition := s.walkPosition + 1 } :=
    fun _ h => h
  refine ⟨_, rfl, fun h => whenServing_listed h ?_⟩
  dsimp only
  split
  · exact h
  · refine finish_listed (hmove _ ?_) none
    split
    · exact h
    · exact poolListed_of_parking (dropHolders_parking s _ _) h

theorem execTimebaseTick_keepsPool : AnswersBy KeepsPool s (execTimebaseTick s) := by
  have hslots : ∀ t : State, (allSlots.foldl State.tickSlot t).parking = t.parking :=
    foldl_keeps State.parking State.tickSlot tickSlot_parking allSlots
  exact ⟨_, rfl, fun h => whenReleased_listed h (poolListed_of_parking
    (((tickWalk_parking _).trans (tickScrubber_parking _)).trans (hslots _)) (catchUp_listed h))⟩

theorem exec_keepsPool (c : Instr) : AnswersBy KeepsPool s (exec c s) := by
  cases c with
  | resetNAssert => exact ⟨_, rfl, fun h => h⟩
  | resetNRelease =>
    refine ⟨_, rfl, fun h => ?_⟩
    split
    · exact poolListed_of_empty rfl
    · exact h
  | initWalkEnd =>
    refine ⟨_, rfl, fun h => whenReleased_listed h ?_⟩
    split <;> exact h
  | softReset value =>
    refine ⟨_, rfl, fun h => whenReleased_listed h ?_⟩
    split
    · exact softReset_listed s
    · exact h
  | timebaseTick => exact execTimebaseTick_keepsPool s
  | storedError w bit => exact ⟨_, rfl, fun h => h⟩
  | readyReceived p f => exact ⟨_, rfl, fun h => whenReleased_listed h (receive_listed h p f)⟩
  | creditReceived p f => exact ⟨_, rfl, fun h => whenReleased_listed h (receive_listed h p f)⟩
  | reinitReceived p f => exact ⟨_, rfl, fun h => whenReleased_listed h (receive_listed h p f)⟩
  | agentMessageArrival p f => exact ⟨_, rfl, fun h => whenReleased_listed h (receive_listed h p f)⟩
  | hello p => exact execHello_keepsPool s p
  | goodbye p => exact execGoodbye_keepsPool s p
  | release p => exact execRelease_keepsPool s p
  | recallAck p => exact execRecallAck_keepsPool s p
  | lookup => exact execLookup_keepsPool s
  | replay => exact execReplay_keepsPool s
  | readyDeparture p => exact execReadyDeparture_keepsPool s p
  | reinitDeparture p => exact execReinitDeparture_keepsPool s p
  | creditDeparture p => exact execCreditDeparture_keepsPool s p
  | outboundDeparture p => exact execOutboundDeparture_keepsPool s p
  | refill p => exact execRefill_keepsPool s p
  | recallReminder k => exact execRecallReminder_keepsPool s k
  | recallTimeout k => exact execRecallTimeout_keepsPool s k
  | scrubRead => exact execScrubRead_keepsPool s
  | purgeVisit => exact execPurgeVisit_keepsPool s
  | badCommand => exact ⟨_, rfl, fun h => takeHead_listed h _ fun _ => h⟩
  | openContext => exact ⟨_, rfl, fun h => takeHead_listed_of_parking h _ (openContext_parking s)⟩
  | closeContext => exact ⟨_, rfl, fun h => takeHead_listed h _ fun r => carryOut_listed h _ _ r _⟩
  | join => exact ⟨_, rfl, fun h => takeHead_listed_of_parking h _ (joinContext_parking s)⟩
  | leave => exact ⟨_, rfl, fun h => takeHead_listed h _ fun r => carryOut_listed h _ _ r _⟩
  | addWindow => exact ⟨_, rfl, fun h => takeHead_listed_of_parking h _ (addWindow_parking s)⟩
  | modifyWindow => exact ⟨_, rfl, fun h => takeHead_listed h _ fun r => carryOut_listed h _ _ r _⟩
  | retireWindow => exact ⟨_, rfl, fun h => takeHead_listed h _ fun r => carryOut_listed h _ _ r _⟩
  | fenceAgent => exact ⟨_, rfl, fun h => takeHead_listed h _ (fenceAgent_listed h)⟩
  | unfenceAgent => exact ⟨_, rfl, fun h => takeHead_listed_of_parking h _ (unfenceAgent_parking s)⟩
  | queryWindow => exact ⟨_, rfl, fun h => takeHead_listed_of_parking h _ (queryWindow_parking s)⟩
  | queryAgent => exact ⟨_, rfl, fun h => takeHead_listed_of_parking h _ (queryAgent_parking s)⟩
  | queryContext => exact ⟨_, rfl, fun h => takeHead_listed_of_parking h _ (queryContext_parking s)⟩
  | portEnable => exact ⟨_, rfl, fun h => takeHead_listed_of_parking h _ (enablePort_parking s)⟩
  | portDisable => exact ⟨_, rfl, fun h => takeHead_listed h _ (disablePort_listed h)⟩
  | portReset => exact ⟨_, rfl, fun h => takeHead_listed h _ (resetPort_listed h)⟩
  | cmdWordWrite value =>
    exact ⟨_, rfl, fun h => whenReleased_listed h (poolListed_of_parking (stage_parking s value) h)⟩
  | cmdPost value =>
    exact ⟨_, rfl, fun h => whenReleased_listed h (poolListed_of_parking (postCommand_parking s) h)⟩
  | cplWordRead =>
    refine ⟨_, rfl, fun h => ?_⟩
    split
    · exact h
    · exact poolListed_of_parking (readCompletion_parking s) h
  | cplPop value =>
    exact ⟨_, rfl, fun h => whenReleased_listed h (poolListed_of_parking (popCompletion_parking s) h)⟩
  | attnCauseWrite value => exact ⟨_, rfl, fun h => whenReleased_listed h h⟩
  | attnEnableWrite value => exact ⟨_, rfl, fun h => whenReleased_listed h h⟩
  | recallLimitWrite value => exact ⟨_, rfl, fun h => whenReleased_listed h h⟩
  | scrubIntervalWrite value => exact ⟨_, rfl, fun h => whenReleased_listed h h⟩
  | faultClear value => exact ⟨_, rfl, fun h => whenReleased_listed h h⟩
  | registerWriteIgnored offset value =>
    exact ⟨_, rfl, fun h => whenReleased_listed h (writeRegister_listed h offset value)⟩

end

/-- Settles O55: an entry is on no list between leaving one and joining another, every shared operation
either leaves the pool alone or moves entries so, and a step is a command's. -/
theorem stepKeepsPoolListed : Obligations.StepKeepsPoolListed := by
  intro s t h hstep
  unfold step at hstep
  split at hstep
  · cases hstep
    exact h
  · next c rest _ =>
    obtain ⟨u, hu, hkeeps⟩ := exec_keepsPool { s with pending := rest } c
    rw [hu] at hstep
    cases hstep
    exact hkeeps h

end Sys2Proof.Machine
end

section
/-! SUPPORT. A request that meets a CHANGING window, and the lookup claim on the head of the replay list
(O32, O33). -/

namespace Sys2Proof.Machine

/-! ## Parking (R62, R64) -/

section
variable {s : State} {p : PortId} {r : Request} {rest : List InMsg} {w : WindowId} {e : EntryId}

theorem freeEntry_of_lowest (hfree : (s.entry e).state = .free)
    (hlowest : ∀ d, d < e → (s.entry d).state ≠ .free) : s.freeEntry = some e :=
  (find?_eq_some_iff_of_rising (key := id) (List.pairwise_lt_finRange 64)).mpr
    ⟨List.mem_finRange e, decide_eq_true hfree, fun d _ hd => decide_eq_false (hlowest d hd)⟩

theorem freeEntry_of_none (h : ∀ e, (s.entry e).state ≠ .free) : s.freeEntry = none :=
  List.find?_eq_none.mpr fun e _ => by simpa using h e

theorem park_of_freeEntry (h : s.freeEntry = some e) : s.park p r w = s.parkEntry e r p w := by
  simp only [State.park, h]

theorem park_of_no_freeEntry (h : s.freeEntry = none) : s.park p r w = s.deny p r .retry := by
  simp only [State.park, h]

theorem exec_lookup_of_changing (h : s.Serves p r rest) (hchecks : s.lookupChecks p r = .changing w) :
    exec .lookup s = .next ((s.claimed p rest).park p r w) := by
  have hclaimed : (s.claimed p rest).lookupChecks p r = .changing w := hchecks
  rw [exec_lookup_of_serves h, State.serve, takeInbound_eq_claimed h.head]
  simp only [hclaimed]

end

/-- Settles O32: a CHANGING window's request takes the lowest FREE entry, and is denied where none is. -/
theorem lookupParksAtAChangingWindow : Obligations.LookupParksAtAChangingWindow := by
  intro s p r rest w hserving hport hroom hin hchecks
  have hserves : s.Serves p r rest := ⟨hserving, hport, hroom, hin⟩
  rw [exec_lookup_of_changing hserves hchecks]
  refine ⟨fun e hfree hlowest => ?_, fun hfull => ?_⟩
  · rw [park_of_freeEntry (s := s.claimed p rest) (freeEntry_of_lowest hfree hlowest)]
    rfl
  · rw [park_of_no_freeEntry (s := s.claimed p rest) (freeEntry_of_none hfull),
      deny_eq_sent (claimed_hasRoom hroom)]
    rfl

/-! ## Answers at a LIVE window (R53, R54) -/

section
variable {s : State} {p : PortId} {r : Request} {w : WindowId}

/-- Agent `a` made a holder of `w`, its held count raised (R14). -/
def State.holding (s : State) (w : WindowId) (a : AgentId) : State :=
  (s.setWindow w { s.window w with holders := addAgent (s.window w).holders a }).setAgent a
    { s.agent a with held := (s.agent a).held + 1 }

theorem answerLive_of_clean_holder (hroom : s.HasRoom p) (hread : Readable s w [])
    (hadmits : admits (s.word w).written.rights r.kind = true)
    (hholder : hasAgent (s.window w).holders r.agent = true) :
    s.answerLive p r w = s.sent p (s.grantMessage r w (s.word w).written) := by
  rw [answerLive_of_admits (readGrant_of_clean .lookup hread) hadmits, grant_of_holder hroom hholder]

theorem answerLive_of_clean_no_holder (hroom : s.HasRoom p) (hread : Readable s w [])
    (hadmits : admits (s.word w).written.rights r.kind = true)
    (hholder : hasAgent (s.window w).holders r.agent = false) :
    s.answerLive p r w = (s.holding w r.agent).sent p (s.grantMessage r w (s.word w).written) := by
  rw [answerLive_of_admits (readGrant_of_clean .lookup hread) hadmits, grant_of_no_holder hroom hholder,
    State.holding]

theorem answerLive_of_clean_not_admits (hroom : s.HasRoom p) (hread : Readable s w [])
    (hadmits : admits (s.word w).written.rights r.kind = false) :
    s.answerLive p r w = s.sent p (.deny r.agent r.tag .rights) := by
  rw [answerLive_of_not_admits (readGrant_of_clean .lookup hread) hadmits, deny_eq_sent hroom]

theorem answerLive_of_poisoned (hroom : s.HasRoom p) (hstate : (s.window w).state = .live)
    (hpoisoned : (s.window w).poisoned = true) :
    s.answerLive p r w = s.sent p (.deny r.agent r.tag .poisoned) := by
  rw [answerLive_of_unread (readGrant_of_poisoned .lookup (used_of_live hstate) hpoisoned),
    deny_eq_sent hroom]

theorem answerLive_of_double (hroom : s.HasRoom p) (hstate : (s.window w).state = .live)
    {b c : CodeBit} (hread : Readable s w [b, c]) :
    s.answerLive p r w = (s.poisonedBy w).sent p (.deny r.agent r.tag .poisoned) := by
  have hroom' : (s.poisonedBy w).HasRoom p := hroom
  rw [answerLive_of_unread (readGrant_eq_poisonedBy hstate hread), deny_eq_sent hroom']

end

/-! ## The claim on the replay head (R56, R66) -/

/-- The arbiter serves entry `e` at the head of the replay list, with `rest` behind it. -/
structure State.Replays (s : State) (e : EntryId) (rest : List EntryId) : Prop where
  serving : Serving s
  head : s.replayList = e :: rest
  room : s.HasRoom (s.entry e).port

/-- `s` with the head of the replay list taken. -/
def State.tookReplay (s : State) (rest : List EntryId) : State := { s with replayList := rest }

/-- `s` with `m` sent in answer to the request of entry `e`, which is freed. -/
def State.answeredEntry (s : State) (e : EntryId) (m : OutMsg) : State :=
  (s.sent (s.entry e).port m).setEntry e { s.entry e with state := .free }

section
variable {s : State} {e : EntryId} {rest : List EntryId} {w : WindowId}

theorem exec_replay_of_replays (h : s.Replays e rest) : exec .replay s = .next (s.serveReplay e) := by
  show Host.Outcome.next (s.whenServing _) = _
  rw [whenServing_of_serving h.serving]
  simp only [replayHead_of_room h.head h.room]

theorem serveReplay_of_head (h : s.replayList = e :: rest) :
    { s with replayList := s.replayList.erase e } = s.tookReplay rest := by
  rw [h, List.erase_cons_head, State.tookReplay]

theorem exec_replay_of_deny (h : s.Replays e rest) {reason : DenyReason}
    (hchecks : s.lookupChecks (s.entry e).port (s.entry e).request = .deny reason) :
    exec .replay s = .next ((s.tookReplay rest).answeredEntry e
      (.deny (s.entry e).request.agent (s.entry e).request.tag reason)) := by
  have htook : (s.tookReplay rest).lookupChecks (s.entry e).port (s.entry e).request = .deny reason :=
    hchecks
  have hroom : (s.tookReplay rest).HasRoom (s.entry e).port := h.room
  rw [exec_replay_of_replays h, State.serveReplay, serveReplay_of_head h.head]
  simp only [htook, deny_eq_sent hroom]
  rfl

theorem exec_replay_of_changing (h : s.Replays e rest)
    (hchecks : s.lookupChecks (s.entry e).port (s.entry e).request = .changing w) :
    exec .replay s = .next
      ((s.tookReplay rest).parkEntry e (s.entry e).request (s.entry e).port w) := by
  have htook : (s.tookReplay rest).lookupChecks (s.entry e).port (s.entry e).request = .changing w :=
    hchecks
  rw [exec_replay_of_replays h, State.serveReplay, serveReplay_of_head h.head]
  simp only [htook]

theorem exec_replay_of_live (h : s.Replays e rest)
    (hchecks : s.lookupChecks (s.entry e).port (s.entry e).request = .live w) :
    exec .replay s = .next
      (((s.tookReplay rest).answerLive (s.entry e).port (s.entry e).request w).closeEntry e) := by
  have htook : (s.tookReplay rest).lookupChecks (s.entry e).port (s.entry e).request = .live w := hchecks
  rw [exec_replay_of_replays h, State.serveReplay, serveReplay_of_head h.head]
  simp only [htook]

/-- A replay answered at a LIVE window with the message `m`, from the state `u` that the read and the
registration of a holder left. -/
theorem exec_replay_of_answer (h : s.Replays e rest)
    (hchecks : s.lookupChecks (s.entry e).port (s.entry e).request = .live w) {u : State} {m : OutMsg}
    (hentry : u.entry e = s.entry e)
    (hanswer : (s.tookReplay rest).answerLive (s.entry e).port (s.entry e).request w
      = u.sent (s.entry e).port m) :
    exec .replay s = .next (u.answeredEntry e m) := by
  have hsent : (u.sent (s.entry e).port m).entry e = s.entry e := hentry
  rw [exec_replay_of_live h hchecks, hanswer, State.closeEntry, hsent, State.answeredEntry, hentry]

/-- The correction of a word leaves the head of the replay list and its room as they are. -/
theorem replays_corrected (h : s.Replays e rest) : (s.corrected w).Replays e rest :=
  ⟨h.serving, h.head, h.room⟩

theorem exec_replay_of_single (h : s.Replays e rest)
    (hchecks : s.lookupChecks (s.entry e).port (s.entry e).request = .live w)
    (hstate : (s.window w).state = .live) {b : CodeBit} (hread : Readable s w [b]) :
    exec .replay s = exec .replay (s.corrected w) := by
  rw [exec_replay_of_live h hchecks, exec_replay_of_live (replays_corrected h) hchecks,
    answerLive_of_single (s := s.tookReplay rest) hstate hread]
  rfl

end

/-- Settles O33: each outcome of the checks and of the read is an answer, which frees the entry, or a
parking in the same entry. -/
theorem replayIsAnsweredOrParksAgain : Obligations.ReplayIsAnsweredOrParksAgain := by
  intro s e rest hserving hlist hroom x a answer
  have h : s.Replays e rest := ⟨hserving, hlist, hroom⟩
  have hroom' : (s.tookReplay rest).HasRoom x.port := hroom
  refine ⟨fun _ hchecks => exec_replay_of_deny h hchecks,
    fun _ hchecks => exec_replay_of_changing h hchecks, ?_⟩
  intro w hchecks hstate g grant
  refine ⟨fun hread hadmits hholder => ?_, fun hread hadmits hholder => ?_, fun hread hadmits => ?_,
    fun hpoisoned => ?_, fun b hread => exec_replay_of_single h hchecks hstate hread, fun b c hread => ?_⟩
  · exact exec_replay_of_answer h hchecks (by rfl)
      (answerLive_of_clean_holder hroom' hread hadmits hholder)
  · exact exec_replay_of_answer h hchecks (by rfl)
      (answerLive_of_clean_no_holder hroom' hread hadmits hholder)
  · exact exec_replay_of_answer h hchecks (by rfl)
      (answerLive_of_clean_not_admits hroom' hread hadmits)
  · exact exec_replay_of_answer h hchecks (by rfl)
      (answerLive_of_poisoned hroom' hstate hpoisoned)
  · exact exec_replay_of_answer h hchecks (by rfl) (answerLive_of_double hroom' hstate hread)

end Sys2Proof.Machine
end

section
/-! SUPPORT. One account of what a command does to the changes in flight: `Deed` is one update of what the
records tell of them, `Deeds` a run of these, and every claim but a timeout, a tick and a reset is such a run
from end to end. -/

namespace Sys2Proof.Machine

/-! ## What the records tell of the changes -/

/-- The slots, and of each window and context record the fields that tell of a change in flight (R1, R24,
R73). -/
structure Ledger where
  slots   : Table 8 Slot
  window  : WindowId → WindowState × Option SlotId
  context : ContextId → AgentSet × AgentSet

def State.ledger (s : State) : Ledger :=
  ⟨s.slots, fun w => ((s.window w).state, (s.window w).slot),
    fun c => ((s.context c).leaving, (s.context c).members)⟩

/-- A slot's record after agents of its change answered, left it, or were sent their RECALL or kept for a later
one (R80, R81, R84). -/
structure RecallStep (r r' : Slot) : Prop where
  record : r' = { r with pending := r'.pending, unsent := r'.unsent }
  pending : ∀ a, hasAgent r'.pending a = true → hasAgent r.pending a = true
  unsent : (∀ a, hasAgent r.unsent a = true → hasAgent r.pending a = true) →
    ∀ a, hasAgent r'.unsent a = true → hasAgent r'.pending a = true

theorem RecallStep.refl (r : Slot) : RecallStep r r := ⟨rfl, fun _ h => h, fun h => h⟩

theorem RecallStep.trans {x y z : Slot} (h : RecallStep x y) (h' : RecallStep y z) : RecallStep x z where
  record := by rw [h'.record, h.record]
  pending a ha := h.pending a (h'.pending a ha)
  unsent hx := h'.unsent (h.unsent hx)

theorem RecallStep.state {r r' : Slot} (h : RecallStep r r') : r'.state = r.state := by rw [h.record]

theorem RecallStep.subject {r r' : Slot} (h : RecallStep r r') : r'.subject = r.subject := by rw [h.record]

/-- An empty pending set stays empty. -/
theorem RecallStep.emptied {r r' : Slot} (h : RecallStep r r') (hr : r.pending = 0) : r'.pending = 0 :=
  agentSet_ext fun a => by
    rw [hasAgent_zero, Bool.eq_false_iff]
    intro ha
    have hmem := h.pending a ha
    rw [hr, hasAgent_zero] at hmem
    cases hmem

/-- An agent leaves a slot's sets (R84). -/
theorem recallStep_drop (r : Slot) (a : AgentId) : RecallStep r
    { r with pending := dropAgent r.pending a, unsent := dropAgent r.unsent a } where
  record := rfl
  pending b hb := by
    rw [hasAgent_dropAgent, Bool.and_eq_true] at hb
    exact hb.1
  unsent hr b hb := by
    rw [hasAgent_dropAgent, Bool.and_eq_true] at hb ⊢
    exact ⟨hr b hb.1, hb.2⟩

/-- A pending agent is kept for a later RECALL (R80). -/
theorem recallStep_keep_unsent {r : Slot} {a : AgentId} (h : hasAgent r.pending a = true) :
    RecallStep r { r with unsent := addAgent r.unsent a } where
  record := rfl
  pending _ hb := hb
  unsent hr b hb := by
    rw [hasAgent_addAgent, Bool.or_eq_true, decide_eq_true_eq] at hb
    rcases hb with hb | rfl
    · exact hr b hb
    · exact h

/-- An agent is sent its RECALL (R81). -/
theorem recallStep_sent (r : Slot) (a : AgentId) :
    RecallStep r { r with unsent := dropAgent r.unsent a } where
  record := rfl
  pending _ hb := hb
  unsent hr b hb := by
    rw [hasAgent_dropAgent, Bool.and_eq_true] at hb
    exact hr b hb.1

/-- Every leaving set lies within its member set (R24). -/
def LeaversMembers (s : State) : Prop :=
  ∀ c a, hasAgent (s.context c).leaving a = true → hasAgent (s.context c).members a = true

/-- FREE slot `k` of `s` is filled in `t` with the record `r`, and the window of the change is CHANGING with
it (R75, R76). -/
structure Fills (s t : State) (k : SlotId) (r : Slot) : Prop where
  free : (s.slot k).state = .free
  unsent : r.unsent = 0
  elapsed : r.elapsed = 0
  due : r.due = .nothing
  slot : ∀ j, t.slot j = if j = k then r else s.slot j
  named : ∀ w, subjectWindow r.subject = some w →
    (t.window w).state = .changing ∧ (t.window w).slot = some k
  others : ∀ w, subjectWindow r.subject ≠ some w →
    (t.window w).state = (s.window w).state ∧ (t.window w).slot = (s.window w).slot
  active : r.state = .active
  members : LeaversMembers s → LeaversMembers t

/-- One update of what the records tell of the changes in flight, or of anything else. -/
inductive Deed : State → State → Prop
  | other {s t : State} (h : t.ledger = s.ledger) : Deed s t
  | slot (s : State) (k : SlotId) {r : Slot} (h : RecallStep (s.slot k) r) : Deed s (s.setSlot k r)
  | remind (s : State) (k : SlotId) (h : (s.slot k).due = .reminder) :
      Deed s (s.setSlot k { s.slot k with reminderSent := true, due := .nothing })
  | unname (s : State) (w : WindowId) {r : Window} (hslot : r.slot = none) (hstate : r.state ≠ .changing) :
      Deed s (s.setWindow w r)
  | context (s : State) (c : ContextId) {r : Context}
      (h : (∀ a, hasAgent (s.context c).leaving a = true → hasAgent (s.context c).members a = true) →
        ∀ a, hasAgent r.leaving a = true → hasAgent r.members a = true) : Deed s (s.setContext c r)
  | free (s : State) (k : SlotId)
      (h : ∀ w, subjectWindow (s.slot k).subject = some w → (s.window w).slot ≠ some k) :
      Deed s (s.setSlot k { s.slot k with state := .free })
  | fill {s t : State} (k : SlotId) (r : Slot) (h : Fills s t k r) : Deed s t

/-- A run of updates. -/
abbrev Deeds : State → State → Prop := Relation.ReflTransGen Deed

theorem deeds_of_ledger {s t : State} (h : t.ledger = s.ledger) : Deeds s t := .single (.other h)

/-- What every update keeps, a run of updates keeps. -/
theorem Deeds.keeps {P : State → Prop} (hdeed : ∀ {s t}, Deed s t → P s → P t) {s t : State}
    (h : Deeds s t) (hs : P s) : P t := by
  induction h with
  | refl => exact hs
  | tail _ hd ih => exact hdeed hd ih

theorem foldl_deeds {β : Type} {op : State → β → State} (h : ∀ s b, Deeds s (op s b)) (l : List β)
    (s : State) : Deeds s (l.foldl op s) := by
  induction l generalizing s with
  | nil => exact .refl
  | cons b l ih => exact (h s b).trans (ih _)

/-! ## Operations that tell nothing of the changes -/

@[simp] theorem place_ledger (s : State) (p : PortId) (m : OutMsg) : (s.place p m).ledger = s.ledger := by
  unfold State.place; split <;> rfl

theorem setWindow_ledger {s : State} {w : WindowId} {r : Window} (hstate : r.state = (s.window w).state)
    (hslot : r.slot = (s.window w).slot) : (s.setWindow w r).ledger = s.ledger := by
  refine congrArg (fun f => Ledger.mk s.slots f s.ledger.context) (funext fun v => ?_)
  rw [State.setWindow_window]
  split
  · next hv => rw [hv, hstate, hslot]
  · rfl

@[simp] theorem addHolder_ledger (s : State) (w : WindowId) (a : AgentId) :
    (s.addHolder w a).ledger = s.ledger := by
  unfold State.addHolder
  split
  · rfl
  · exact setWindow_ledger (s := s) (w := w)
      (r := { s.window w with holders := addAgent (s.window w).holders a }) rfl rfl

@[simp] theorem dropHolder_ledger (s : State) (w : WindowId) (a : AgentId) :
    (s.dropHolder w a).ledger = s.ledger := by
  unfold State.dropHolder
  split
  · exact setWindow_ledger (s := s) (w := w)
      (r := { s.window w with holders := dropAgent (s.window w).holders a }) rfl rfl
  · rfl

@[simp] theorem dropHolders_ledger (s : State) (w : WindowId) (x : AgentSet) :
    (s.dropHolders w x).ledger = s.ledger := foldl_keeps _ _ (fun _ _ => dropHolder_ledger _ _ _) _ _

@[simp] theorem dropEntries_ledger (s : State) (pick : PoolEntry → Bool) :
    (s.dropEntries pick).ledger = s.ledger := by
  obtain ⟨_, _, _, h⟩ := dropEntries_only_pool s pick
  rw [h]
  rfl

@[simp] theorem movePark_ledger (s : State) (w : WindowId) : (s.movePark w).ledger = s.ledger :=
  foldl_keeps State.ledger (fun s e => s.setEntry e { s.entry e with state := .replay }) (fun _ _ => rfl) _ _

@[simp] theorem moveParkOf_ledger (s : State) (z : ChangeSubject) : (s.moveParkOf z).ledger = s.ledger := by
  unfold State.moveParkOf
  split
  · exact movePark_ledger s _
  · rfl

@[simp] theorem postAll_ledger (s : State) (cs : List Completion) : (s.postAll cs).ledger = s.ledger :=
  foldl_keeps State.ledger State.post (fun _ _ => rfl) cs s

@[simp] theorem spoil_ledger (s : State) (w : WindowId) : (s.spoil w).ledger = s.ledger := by
  unfold State.spoil
  split
  · rfl
  · exact setWindow_ledger (w := w) (r := { s.window w with poisoned := true }) rfl rfl

@[simp] theorem readGrant_ledger (s : State) (d : Detector) (w : WindowId) :
    (s.readGrant d w).1.ledger = s.ledger := by
  unfold State.readGrant
  split
  · rfl
  · split
    · rfl
    · rfl
    · exact spoil_ledger (s.storageFault .uncorrected w d) w

@[simp] theorem sendFence_ledger (s : State) (a : AgentId) : (s.sendFence a).ledger = s.ledger := by
  unfold State.sendFence
  split
  · split
    · exact place_ledger s _ _
    · split <;> rfl
  · rfl

@[simp] theorem reachTarget_ledger (s : State) (kept : Option AgentId) (a : AgentId) :
    (s.reachTarget kept a).ledger = s.ledger := by
  unfold State.reachTarget
  dsimp only
  split
  · split
    · exact place_ledger _ _ _
    · rfl
  all_goals rfl

@[simp] theorem endPurges_ledger (s : State) (kept : Option AgentId) :
    (s.endPurges kept).ledger = s.ledger := by
  refine foldl_keeps _ _ (fun t a => ?_) _ _
  unfold State.endPurge
  split
  · exact reachTarget_ledger t kept a
  · rfl

@[simp] theorem enterUp_ledger (s : State) (p : PortId) : (s.enterUp p).ledger = s.ledger := by
  refine foldl_keeps State.ledger (fun s a => s.announceFence p a) (fun t a => ?_) _ _
  unfold State.announceFence
  dsimp only
  split
  · exact place_ledger t p _
  · rfl

@[simp] theorem refillOwed_ledger (s : State) (p : PortId) (a : AgentId) :
    (s.refillOwed p a).ledger = s.ledger := by
  unfold State.refillOwed
  dsimp only
  split
  · split
    · exact place_ledger _ p _
    · split
      · exact place_ledger _ p _
      · rfl
  · rfl

@[simp] theorem remind_ledger (s : State) (k : SlotId) (a : AgentId) :
    (s.remind k a).ledger = s.ledger := by
  unfold State.remind
  split
  · exact place_ledger s _ _
  · rfl

@[simp] theorem answerLive_ledger (s : State) (p : PortId) (r : Request) (w : WindowId) :
    (s.answerLive p r w).ledger = s.ledger := by
  have hread := readGrant_ledger s .lookup w
  unfold State.answerLive
  dsimp only
  split
  · exact (place_ledger _ p _).trans hread
  · split
    · exact ((place_ledger _ p _).trans (addHolder_ledger _ w r.agent)).trans hread
    · exact (place_ledger _ p _).trans hread

@[simp] theorem serve_ledger (s : State) (p : PortId) (r : Request) : (s.serve p r).ledger = s.ledger := by
  unfold State.serve
  dsimp only
  split
  · exact place_ledger _ p _
  · unfold State.park
    split
    · rfl
    · exact place_ledger _ p _
  · exact answerLive_ledger _ p r _

@[simp] theorem serveReplay_ledger (s : State) (e : EntryId) : (s.serveReplay e).ledger = s.ledger := by
  unfold State.serveReplay
  dsimp only
  split
  · exact place_ledger _ _ _
  · rfl
  · exact answerLive_ledger _ _ _ _

@[simp] theorem tickScrubber_ledger (s : State) : s.tickScrubber.ledger = s.ledger := by
  unfold State.tickScrubber
  split
  · rfl
  split
  · rfl
  split
  · exact readGrant_ledger s .scrub s.scrubPosition
  · rfl

@[simp] theorem tickWalk_ledger (s : State) : s.tickWalk.ledger = s.ledger := by
  unfold State.tickWalk; split <;> rfl

/-! ## Answers, purges and fences -/

theorem dropPending_deeds (s : State) (k : SlotId) (a : AgentId) : Deeds s (s.dropPending k a) :=
  .single (.slot s k (recallStep_drop _ a))

theorem dropAnswer_deeds (s : State) (k : SlotId) (a : AgentId) : Deeds s (s.dropAnswer k a) := by
  unfold State.dropAnswer
  split
  · exact (dropPending_deeds s k a).trans (deeds_of_ledger (dropHolder_ledger _ _ a))
  · exact dropPending_deeds s k a

theorem quitSlots_deeds (s : State) (a : AgentId) : Deeds s (s.quitSlots a) := by
  refine foldl_deeds (fun t k => ?_) allSlots s
  unfold State.quitSlot
  split
  · exact dropAnswer_deeds t k a
  · exact .refl

theorem purgeStart_deeds (s : State) (a : AgentId) (x : PurgeTarget) : Deeds s (s.purgeStart a x) := by
  have hfence := fun t : State =>
      show (if x = .fenced then t.sendFence a else t).ledger = t.ledger by
    split
    · exact sendFence_ledger t a
    · rfl
  have hagent : (s.setAgent a { s.agent a with
      state := .purging, target := some x, welcomeOwed := decide (x = .active) }).ledger = s.ledger := rfl
  have hpurging : ∀ t : State, Deeds t { t with purgeSet := addAgent t.purgeSet a } :=
    fun _ => deeds_of_ledger rfl
  unfold State.purgeStart
  exact ((deeds_of_ledger ((dropEntries_ledger _ _).trans ((hfence _).trans hagent))).trans
    (quitSlots_deeds _ a)).trans (hpurging _)

theorem fence_deeds (s : State) (a : AgentId) : Deeds s (s.fence a) := by
  unfold State.fence
  dsimp only
  split
  · exact purgeStart_deeds s a _
  · split
    · exact .refl
    · exact deeds_of_ledger (sendFence_ledger _ a)
  · exact deeds_of_ledger rfl
  · exact .refl

theorem depart_deeds (s : State) (a : AgentId) : Deeds s (s.depart a) := by
  unfold State.depart
  dsimp only
  split
  · exact purgeStart_deeds s a _
  · split
    · exact deeds_of_ledger rfl
    · exact .refl
  · exact .refl
  · exact .refl

theorem losePort_deeds (s : State) (p : PortId) (a : AgentId) : Deeds s (s.losePort p a) := by
  unfold State.losePort
  split
  · exact (depart_deeds s a).trans (deeds_of_ledger rfl)
  · exact .refl

/-! ## Completions (R91 to R95) -/

theorem freeRecord_deeds (s : State) (w : WindowId) : Deeds s (s.freeRecord w) := by
  have hgrant : ∀ (t : State) (g : GrantPart), Deeds t (t.writeGrant w g) :=
    fun _ _ => deeds_of_ledger rfl
  unfold State.freeRecord
  exact .head (.unname s w (by rfl) (by exact nofun)) (hgrant _ _)

theorem leaveWindow_deeds (s : State) (a : AgentId) (w : WindowId) : Deeds s (s.leaveWindow a w) := by
  have hdrop : Deeds s (s.dropHolder w a) := deeds_of_ledger (dropHolder_ledger s w a)
  unfold State.leaveWindow
  dsimp only
  split
  · split
    · exact hdrop.trans (dropPending_deeds _ _ a)
    · exact hdrop
  · exact hdrop

theorem leaveHoldings_deeds (s : State) (c : ContextId) (a : AgentId) : Deeds s (s.leaveHoldings c a) :=
  foldl_deeds (fun _ _ => leaveWindow_deeds _ _ _) _ _

theorem applyModify_deeds (s : State) (w : WindowId) (v : NewValues) : Deeds s (s.applyModify w v) := by
  have hgrant : ∀ (t : State) (g : GrantPart), Deeds t (t.writeGrant w g) :=
    fun _ _ => deeds_of_ledger rfl
  unfold State.applyModify
  exact .head (.unname s w (by rfl) (by exact nofun)) (hgrant _ _)

theorem setWindowList_deeds (s : State) (c : ContextId) (l : List WindowId) :
    Deeds s (s.setWindowList c l) := deeds_of_ledger rfl

theorem applyRetire_deeds (s : State) (w : WindowId) : Deeds s (s.applyRetire w) := by
  unfold State.applyRetire
  exact ((setWindowList_deeds s _ _).tail (.context _ _ (by exact fun h => h))).trans (freeRecord_deeds _ w)

theorem applyClose_deeds (s : State) (c : ContextId) : Deeds s (s.applyClose c) := by
  have hfold : ∀ l : List WindowId, Deeds s
      (l.foldl (fun s w => (s.dropHolders w (s.window w).holders).freeRecord w) s) :=
    fun l => foldl_deeds
      (fun t w => (deeds_of_ledger (dropHolders_ledger t w _)).trans (freeRecord_deeds _ w)) l s
  have hempty : ∀ a, hasAgent (0 : AgentSet) a = true → hasAgent (0 : AgentSet) a = true := fun _ h => h
  unfold State.applyClose
  exact ((hfold _).trans (setWindowList_deeds _ c [])).tail (.context _ c fun _ => hempty)

theorem applyLeave_deeds (s : State) (c : ContextId) (a : AgentId) : Deeds s (s.applyLeave c a) := by
  unfold State.applyLeave
  refine (leaveHoldings_deeds s c a).tail (.context _ c fun h b hb => ?_)
  rw [hasAgent_dropAgent, Bool.and_eq_true] at hb ⊢
  exact ⟨h b hb.1, hb.2⟩

theorem changeEffect_deeds (s : State) (z : ChangeSubject) (v : NewValues) :
    Deeds s (s.changeEffect z v) := by
  cases z with
  | modify w => exact applyModify_deeds s w v
  | retire w => exact applyRetire_deeds s w
  | close c => exact applyClose_deeds s c
  | leave c a => exact applyLeave_deeds s c a

theorem leaveHoldings_recallStep (s : State) (c : ContextId) (a : AgentId) (k : SlotId) :
    RecallStep (s.slot k) ((s.leaveHoldings c a).slot k) := by
  refine foldl_invariant (fun t : State => RecallStep (s.slot k) (t.slot k)) _ (fun t w ht => ?_) _ s
    (.refl _)
  have hdrop : RecallStep (s.slot k) ((t.dropHolder w a).slot k) := by rwa [dropHolder_slot]
  unfold State.leaveWindow
  dsimp only
  split
  · split
    · rw [dropPending_slot]
      split
      · next hk => exact hk ▸ hdrop.trans (recallStep_drop _ a)
      · exact hdrop
    · exact hdrop
  · exact hdrop

/-- The effects of a change leave a slot's record but for the answers of an agent that leaves. -/
theorem changeEffect_recallStep (s : State) (z : ChangeSubject) (v : NewValues) (k : SlotId) :
    RecallStep (s.slot k) ((s.changeEffect z v).slot k) := by
  cases z with
  | modify w => exact .refl _
  | retire w => exact .refl _
  | close c =>
    rw [show s.changeEffect (.close c) v = s.applyClose c from rfl, (applyClose_shrinks s c).slots k]
    exact .refl _
  | leave c a => exact leaveHoldings_recallStep s c a k

theorem moveParkOf_slot (s : State) (z : ChangeSubject) (k : SlotId) :
    (s.moveParkOf z).slot k = s.slot k := (moveParkOf_shrinks s z).slots k

theorem moveParkOf_window_slot (s : State) (z : ChangeSubject) (w : WindowId) :
    ((s.moveParkOf z).window w).slot = (s.window w).slot :=
  congrArg Prod.snd (congrFun (congrArg Ledger.window (moveParkOf_ledger s z)) w)

/-- A change of a window leaves it with no slot (R19, R20). -/
theorem changeEffect_window_slot {s : State} {z : ChangeSubject} (v : NewValues) {w : WindowId}
    (h : subjectWindow z = some w) : ((s.changeEffect z v).window w).slot = none := by
  have hset : ∀ (t : State) (r : Window) (x : CodeWord), r.slot = none →
      (((t.setWindow w r).setWord w x).window w).slot = none :=
    fun t r x hr => by rw [State.setWord_window, State.setWindow_window, if_pos rfl, hr]
  cases z with
  | modify _ => cases h; exact hset s _ _ rfl
  | retire _ => cases h; exact hset _ _ _ rfl
  | close _ => cases h
  | leave _ _ => cases h

theorem completeSlot_deeds (s : State) (k : SlotId) : Deeds s (s.completeSlot k).1 := by
  refine ((changeEffect_deeds s (s.slot k).subject (s.slot k).newValues).trans
    (deeds_of_ledger (moveParkOf_ledger _ (s.slot k).subject))).tail (.free _ k fun w hw => ?_)
  rw [moveParkOf_slot, (changeEffect_recallStep s _ _ k).subject] at hw
  rw [moveParkOf_window_slot, changeEffect_window_slot _ hw]
  exact nofun

theorem leaveFirst_deeds (s : State) (k : SlotId) : Deeds s (s.leaveFirst k) := by
  unfold State.leaveFirst
  split
  · split
    · exact leaveHoldings_deeds s _ _
    all_goals exact .refl
  · exact .refl

theorem completeIfEmptied_deeds (x : State × List Completion) (k : SlotId) :
    Deeds x.1 (completeIfEmptied x k).1 := by
  unfold completeIfEmptied
  split
  · exact completeSlot_deeds x.1 k
  · exact .refl

theorem completeEmptied_deeds (s : State) : Deeds s s.completeEmptied.1 := by
  have hcompletions : ∀ (l : List SlotId) (x : State × List Completion),
      Deeds x.1 (l.foldl completeIfEmptied x).1 := fun l => by
    induction l with
    | nil => exact fun _ => .refl
    | cons k l ih => exact fun x => (completeIfEmptied_deeds x k).trans (ih _)
  have hleave := foldl_deeds leaveFirst_deeds allSlots s
  unfold State.completeEmptied
  generalize allSlots.foldl State.leaveFirst s = t at hleave ⊢
  exact hleave.trans (hcompletions allSlots (t, []))

theorem settle_deeds (s : State) (kept : Option AgentId) (late : Bool) :
    Deeds s (s.settle kept late) := by
  have hpost : ∀ (t : State) (cs : List Completion), (t.clearFences.postAll cs).ledger = t.ledger :=
    fun t cs => postAll_ledger t.clearFences cs
  exact (completeEmptied_deeds s).trans (deeds_of_ledger ((hpost _ _).trans (endPurges_ledger _ kept)))

/-! ## Filling a slot (R76) -/

/-- The agent of a LEAVE is a member of the context. -/
def State.LeaverIsMember (s : State) (z : ChangeSubject) : Prop :=
  ∀ c a, z = .leave c a → hasAgent (s.context c).members a = true

theorem judgeModify_subject {s : State} {r : CmdRecord} {z : ChangeSubject} {v : NewValues}
    (h : judgeModify s r = .needsSlot z v) : ∃ w, z = .modify w := by
  unfold judgeModify at h
  split at h
  · split at h
    · split at h
      · cases h
      · split_ifs at h
        cases h
        exact ⟨_, rfl⟩
    · cases h
  · cases h

theorem judgeRetire_subject {s : State} {r : CmdRecord} {z : ChangeSubject} {v : NewValues}
    (h : judgeRetire s r = .needsSlot z v) : ∃ w, z = .retire w := by
  unfold judgeRetire at h
  split at h
  · cases h
  · split at h
    · cases h
    · split_ifs at h
      cases h
      exact ⟨_, rfl⟩

theorem judgeClose_subject {s : State} {r : CmdRecord} {z : ChangeSubject} {v : NewValues}
    (h : judgeClose s r = .needsSlot z v) : ∃ c, z = .close c := by
  unfold judgeClose at h
  split at h
  · cases h
  split_ifs at h
  cases h
  exact ⟨_, rfl⟩

/-- Validation lets a LEAVE of a member alone need a slot (R147). -/
theorem judgeLeave_member {s : State} {r : CmdRecord} {z : ChangeSubject} {v : NewValues}
    (h : judgeLeave s r = .needsSlot z v) : s.LeaverIsMember z := by
  unfold judgeLeave at h
  split at h
  · cases h
  split_ifs at h with _ _ hmember _
  cases h
  intro c a hz
  cases hz
  simpa using hmember

theorem leaverIsMember_of_modify {s : State} {r : CmdRecord} {z : ChangeSubject} {v : NewValues}
    (h : judgeModify s r = .needsSlot z v) : s.LeaverIsMember z := by
  obtain ⟨w, rfl⟩ := judgeModify_subject h
  exact nofun

theorem leaverIsMember_of_retire {s : State} {r : CmdRecord} {z : ChangeSubject} {v : NewValues}
    (h : judgeRetire s r = .needsSlot z v) : s.LeaverIsMember z := by
  obtain ⟨w, rfl⟩ := judgeRetire_subject h
  exact nofun

theorem leaverIsMember_of_close {s : State} {r : CmdRecord} {z : ChangeSubject} {v : NewValues}
    (h : judgeClose s r = .needsSlot z v) : s.LeaverIsMember z := by
  obtain ⟨c, rfl⟩ := judgeClose_subject h
  exact nofun

theorem judgeChange_member {s : State} {r : CmdRecord} {z : ChangeSubject} {v : NewValues}
    (h : judgeChange s r = .needsSlot z v) : s.LeaverIsMember z := by
  unfold judgeChange at h
  split at h
  · exact leaverIsMember_of_close h
  · exact judgeLeave_member h
  · exact leaverIsMember_of_modify h
  · exact leaverIsMember_of_retire h
  · cases h

theorem freeSlot_state {s : State} {k : SlotId} (h : s.freeSlot = some k) : (s.slot k).state = .free := by
  simpa using List.find?_some h

/-- The records as step 5 of a fill leaves them: the change's window, or its context, says so. -/
theorem recordsFilled_window (s : State) (k : SlotId) (z : ChangeSubject) (w : WindowId) :
    (((s.recordsFilled k z).window w).state, ((s.recordsFilled k z).window w).slot)
      = if subjectWindow z = some w then (.changing, some k) else ((s.window w).state, (s.window w).slot) := by
  have hwindow : ∀ v, (((s.setWindow v { s.window v with state := .changing, slot := some k }).window w).state,
      ((s.setWindow v { s.window v with state := .changing, slot := some k }).window w).slot)
      = if some v = some w then (.changing, some k) else ((s.window w).state, (s.window w).slot) := fun v => by
    rw [State.setWindow_window]
    by_cases hw : w = v
    · simp [hw]
    · simp [hw, Ne.symm hw]
  have hdrop : ∀ (t : State) v x, (((t.dropHolders v x).window w).state, ((t.dropHolders v x).window w).slot)
      = ((t.window w).state, (t.window w).slot) :=
    fun t v x => congrFun (congrArg Ledger.window (dropHolders_ledger t v x)) w
  cases z with
  | modify v => exact (hdrop _ v _).trans (hwindow v)
  | retire v => exact (hdrop _ v _).trans (hwindow v)
  | close c => rfl
  | leave c a => rfl

theorem leaversMembers_setContext {s : State} {c : ContextId} {r : Context}
    (hr : ∀ a, hasAgent r.leaving a = true → hasAgent r.members a = true) (h : LeaversMembers s) :
    LeaversMembers (s.setContext c r) := fun d => by
  rw [State.setContext_context]
  split
  · exact hr
  · exact h d

theorem leaversMembers_of_ledger {s t : State} (ht : t.ledger = s.ledger) (h : LeaversMembers s) :
    LeaversMembers t := fun c a => by
  have hc : ((t.context c).leaving, (t.context c).members) = ((s.context c).leaving, (s.context c).members) :=
    congrFun (congrArg Ledger.context ht) c
  obtain ⟨hleaving, hmembers⟩ := Prod.ext_iff.mp hc
  dsimp only at hleaving hmembers
  rw [hleaving, hmembers]
  exact h c a

theorem recordsFilled_members {s : State} {k : SlotId} {z : ChangeSubject} (hz : s.LeaverIsMember z)
    (h : LeaversMembers s) : LeaversMembers (s.recordsFilled k z) := by
  have hwindow : ∀ (t : State) (w : WindowId) (r : Window) (x : AgentSet), LeaversMembers t →
      LeaversMembers ((t.setWindow w r).dropHolders w x) :=
    fun t w r x ht => leaversMembers_of_ledger (s := t.setWindow w r) (dropHolders_ledger _ w x) ht
  cases z with
  | modify w => exact hwindow _ w _ _ h
  | retire w => exact hwindow _ w _ _ h
  | close c => exact leaversMembers_setContext (s := { s with serial := s.nextSerial }) (h c) h
  | leave c b =>
    refine leaversMembers_setContext (s := { s with serial := s.nextSerial }) (fun a ha => ?_) h
    rw [hasAgent_addAgent, Bool.or_eq_true, decide_eq_true_eq] at ha
    rcases ha with ha | rfl
    · exact h c a ha
    · exact hz c a rfl

theorem recordsFilled_slot (s : State) (k : SlotId) (z : ChangeSubject) (j : SlotId) :
    (s.recordsFilled k z).slot j = s.slot j := fillRecords_slot _ k z j

theorem slotOpened_fills {s : State} {k : SlotId} {z : ChangeSubject} (v : NewValues) (tag : Half)
    (hfree : (s.slot k).state = .free) (hz : s.LeaverIsMember z) :
    ∃ r, Fills s (s.slotOpened k z v tag) k r := by
  have hwindow := recordsFilled_window s k z
  refine ⟨⟨.active, s.nextSerial, z, filledValues z v ((s.recordsFilled k z).slot k).newValues, tag,
    (s.recordsFilled k z).pendingOf z, 0, 0, false, 0, .nothing⟩,
    hfree, rfl, rfl, rfl, fun j => ?_, fun w hw => ?_, fun w hw => ?_, rfl, recordsFilled_members hz⟩
  · rw [State.slotOpened, State.setSlot_slot, recordsFilled_slot s k z j]
  · exact Prod.ext_iff.mp ((hwindow w).trans (if_pos hw))
  · exact Prod.ext_iff.mp ((hwindow w).trans (if_neg hw))

theorem firstRecall_deeds {s : State} (kept : Option AgentId) {k : SlotId} {a : AgentId}
    (h : hasAgent (s.slot k).pending a = true) : Deeds s (s.firstRecall kept k a) := by
  unfold State.firstRecall
  split
  · exact deeds_of_ledger (place_ledger s _ _)
  · exact .single (.slot s k (recallStep_keep_unsent h))

theorem firstRecall_pending (s : State) (kept : Option AgentId) (k : SlotId) (a : AgentId) (j : SlotId) :
    ((s.firstRecall kept k a).slot j).pending = (s.slot j).pending := by
  unfold State.firstRecall
  split
  · rw [place_slot]
  · rw [State.setSlot_slot]
    split
    · next hj => rw [hj]
    · rfl

theorem fillSlot_deeds {s : State} (kept : Option AgentId) {k : SlotId} {z : ChangeSubject} (v : NewValues)
    (tag : Half) (hfree : (s.slot k).state = .free) (hz : s.LeaverIsMember z) :
    Deeds s (s.fillSlot kept k z v tag) := by
  obtain ⟨r, hfills⟩ := slotOpened_fills v tag hfree hz
  have hpending : ((s.slotOpened k z v tag).slot k).pending = (s.recordsFilled k z).pendingOf z := by
    rw [State.slotOpened, State.setSlot_slot, if_pos rfl]
  have hrecalls : ∀ (l : List AgentId) (t : State), (∀ a ∈ l, hasAgent (t.slot k).pending a = true) →
      Deeds t (l.foldl (fun s a => s.firstRecall kept k a) t) := fun l => by
    induction l with
    | nil => exact fun _ _ => .refl
    | cons a l ih =>
      refine fun t ht => (firstRecall_deeds kept (ht a List.mem_cons_self)).trans (ih _ fun b hb => ?_)
      rw [firstRecall_pending]
      exact ht b (List.mem_cons_of_mem _ hb)
  rw [fillSlot_eq]
  refine (Relation.ReflTransGen.single (.fill k r hfills)).trans (hrecalls _ _ fun a ha => ?_)
  rw [hpending]
  exact (mem_agentsOf _ a).mp ha

/-! ## The end of a claim -/

theorem carryOut_deeds {s : State} (kept : Option AgentId) (late : Bool) (r : CmdRecord) {j : Judgement}
    (hj : ∀ z v, j = .needsSlot z v → s.LeaverIsMember z) : Deeds s (s.carryOut kept late r j) := by
  have htake : Deeds s s.takeCommand := deeds_of_ledger rfl
  unfold State.carryOut
  split
  · exact htake.trans (deeds_of_ledger rfl)
  · exact (htake.trans (changeEffect_deeds _ _ _)).trans (deeds_of_ledger rfl)
  · next z v =>
    split
    · exact deeds_of_ledger rfl
    · next k hk =>
      have hfill : Deeds s.takeCommand (s.takeCommand.fillSlot kept k z v (recordTag r)) :=
        fillSlot_deeds (s := s.takeCommand) kept v _ (freeSlot_state hk) (hj z v rfl)
      exact (htake.trans hfill).trans (settle_deeds _ kept late)

theorem reconsider_deeds (s : State) (kept : Option AgentId) : Deeds s (s.reconsider kept) := by
  unfold State.reconsider
  split
  · split
    · exact carryOut_deeds kept true _ fun _ _ hj => judgeChange_member hj
    · exact .refl
  · exact .refl

theorem finish_deeds (s : State) (caller : Option AgentId) : Deeds s (s.finish caller) := by
  unfold State.finish
  exact (settle_deeds s _ false).trans (reconsider_deeds _ _)

end Sys2Proof.Machine
end

section
/-! SUPPORT. Every claim but a timeout, a tick and a reset is a run of deeds; the timeout and the tick in their
steps; and what each of these does to the slots. -/

namespace Sys2Proof.Machine

/-! ## The links (R112 to R120) -/

theorem enterReinit_deeds (s : State) (p : PortId) (d : Destination) : Deeds s (s.enterReinit p d) := by
  have hdiscard : ∀ pick, ((s.discardLink p d).dropEntries pick).ledger = s.ledger :=
    fun pick => dropEntries_ledger (s.discardLink p d) pick
  unfold State.enterReinit State.losePorts
  exact ((deeds_of_ledger (hdiscard _)).trans (foldl_deeds (fun _ _ => losePort_deeds _ _ _) _ _)).trans
    (finish_deeds _ _)

theorem violation_deeds (s : State) (p : PortId) (kind : Violation) : Deeds s (s.violation p kind) := by
  have hbank : Deeds s { s with linkBank := recordLink s.linkBank p kind } := deeds_of_ledger rfl
  exact hbank.trans (enterReinit_deeds _ p _)

theorem receiveReady_deeds (s : State) (p : PortId) (n : Nat) : Deeds s (s.receiveReady p n) := by
  unfold State.receiveReady
  dsimp only
  split
  · split
    · exact deeds_of_ledger (enterUp_ledger _ p)
    · exact deeds_of_ledger rfl
  · exact violation_deeds s p _

theorem receiveCredit_deeds (s : State) (p : PortId) (n : Nat) : Deeds s (s.receiveCredit p n) := by
  unfold State.receiveCredit
  dsimp only
  split
  · exact violation_deeds s p _
  · split
    · exact deeds_of_ledger rfl
    · exact violation_deeds s p _

theorem receiveReinit_deeds (s : State) (p : PortId) : Deeds s (s.receiveReinit p) := by
  unfold State.receiveReinit
  dsimp only
  split
  · exact enterReinit_deeds s p _
  · exact deeds_of_ledger rfl

theorem receiveAgent_deeds (s : State) (p : PortId) (m : InMsg) : Deeds s (s.receiveAgent p m) := by
  unfold State.receiveAgent
  dsimp only
  split
  · split
    · exact violation_deeds s p _
    · exact deeds_of_ledger rfl
  · exact violation_deeds s p _

theorem receive_deeds (s : State) (p : PortId) (f : Frame) : Deeds s (s.receive p f) := by
  unfold State.receive
  split
  · split
    · exact violation_deeds s p _
    · exact receiveReady_deeds s p _
    · exact receiveCredit_deeds s p _
    · exact receiveReinit_deeds s p
    · exact receiveAgent_deeds s p _
  · exact .refl

theorem refillSlot_deeds (s : State) (p : PortId) (k : SlotId) : Deeds s (s.refillSlot p k) := by
  unfold State.refillSlot
  split
  · refine foldl_deeds (fun t a => ?_) _ s
    unfold State.refillRecall
    split
    · refine .tail (deeds_of_ledger (place_ledger t p _)) (.slot _ k ?_)
      rw [place_slot]
      exact recallStep_sent _ a
    · exact .refl
  · exact .refl

/-! ## Messages of agents, and the purge walk -/

theorem takeHello_deeds (s : State) (p : PortId) (a : AgentId) : Deeds s (s.takeHello p a) := by
  have hplace : ∀ (r : Agent) (m : OutMsg), Deeds s ((s.setAgent a r).place p m) :=
    fun r m => deeds_of_ledger (place_ledger (s.setAgent a r) p m)
  unfold State.takeHello
  dsimp only
  split
  · exact hplace _ _
  split
  · exact hplace _ _
  split
  · exact deeds_of_ledger (place_ledger s p _)
  split
  · exact (purgeStart_deeds s a _).trans (finish_deeds _ _)
  split
  · exact hplace _ _
  split
  · exact hplace _ _
  split
  · exact deeds_of_ledger rfl
  · exact .refl

theorem takeGoodbye_deeds (s : State) (p : PortId) (a : AgentId) : Deeds s (s.takeGoodbye p a) := by
  unfold State.takeGoodbye
  split
  · exact (depart_deeds s a).trans (finish_deeds _ _)
  · exact .refl

theorem takeRelease_deeds (s : State) (p : PortId) (a : AgentId) (w : WindowId) (version : Half) :
    Deeds s (s.takeRelease p a w version) := by
  have hdrop : Deeds s (s.dropHolder w a) := deeds_of_ledger (dropHolder_ledger s w a)
  unfold State.takeRelease
  dsimp only
  split
  · split
    · exact (hdrop.trans (dropPending_deeds _ _ a)).trans (finish_deeds _ _)
    · exact hdrop.trans (finish_deeds _ _)
  · exact .refl

theorem takeAck_deeds (s : State) (p : PortId) (a : AgentId) (serial : Half) :
    Deeds s (s.takeAck p a serial) := by
  unfold State.takeAck
  split
  · exact (dropAnswer_deeds s _ a).trans (finish_deeds _ _)
  · exact .refl

/-! ## The reminder, the timeout and the tick (R86 to R88, R135) -/

/-- A slot's reminder sent: the flag is set and nothing is due (R87). -/
def Slot.reminded (r : Slot) : Slot := { r with reminderSent := true, due := .nothing }

theorem takeReminder_ledger (s : State) (k : SlotId) :
    (s.takeReminder k).ledger = (s.setSlot k (s.slot k).reminded).ledger :=
  foldl_keeps State.ledger (fun s a => s.remind k a) (fun _ _ => remind_ledger _ _ _) _ _

theorem takeReminder_deeds {s : State} {k : SlotId} (h : (s.slot k).due = .reminder) :
    Deeds s (s.takeReminder k) :=
  (Relation.ReflTransGen.single (Deed.remind s k h)).trans (deeds_of_ledger (takeReminder_ledger s k))

/-- A slot's pending agents moved to its fenced set (R88, step 1). -/
def Slot.lapsed (r : Slot) : Slot :=
  { r with fenced := r.fenced ||| r.pending, pending := 0, unsent := 0, due := .nothing }

theorem lapse_ledger (s : State) (k : SlotId) :
    (s.lapse k).ledger = (s.setSlot k (s.slot k).lapsed).ledger := by
  unfold State.lapse
  dsimp only
  split
  · exact dropHolders_ledger _ _ _
  · rfl

/-- What follows the first steps of a timeout is a run of deeds: the fences and the end of the claim. -/
theorem timeOut_deeds (s : State) (k : SlotId) : Deeds (s.lapse k) (s.timeOut k) := by
  unfold State.timeOut
  exact (foldl_deeds fence_deeds _ _).trans (finish_deeds _ none)

/-- A tick, taken whole (R135). -/
def State.ticked (s : State) : State := ((allSlots.foldl State.tickSlot s.catchUp).tickScrubber).tickWalk

/-- A slot's record after a tick: an ACTIVE slot's elapsed time rises by one and is compared (R86). -/
def Slot.ticked (limit : BitVec 12) (r : Slot) : Slot :=
  if r.state = .active then
    { r with elapsed := r.elapsed + 1, due := dueAt limit { r with elapsed := r.elapsed + 1 } }
  else r

theorem tickSlot_slot (s : State) (k j : SlotId) :
    (s.tickSlot k).slot j = if j = k then (s.slot k).ticked s.recallLimit else s.slot j := by
  unfold State.tickSlot Slot.ticked
  dsimp only
  split
  · exact State.setSlot_slot _ _ _ _
  · split
    · next hj => rw [hj]
    · rfl

theorem tickSlot_only_slots (s : State) (k : SlotId) :
    s.tickSlot k = { s with slots := (s.tickSlot k).slots } := by
  unfold State.tickSlot
  dsimp only
  split <;> rfl

theorem foldl_tickSlot_only_slots (l : List SlotId) (s : State) :
    ∃ slots, l.foldl State.tickSlot s = { s with slots := slots } :=
  foldl_invariant (fun t : State => ∃ slots, t = { s with slots := slots }) _
    (fun t k ⟨slots, ht⟩ => ⟨(t.tickSlot k).slots, by rw [tickSlot_only_slots, ht]⟩) l s ⟨_, rfl⟩

theorem foldl_tickSlot_slot (l : List SlotId) (hl : l.Nodup) (s : State) (j : SlotId) :
    (l.foldl State.tickSlot s).slot j
      = if j ∈ l then (s.slot j).ticked s.recallLimit else s.slot j := by
  induction l generalizing s with
  | nil => rfl
  | cons k l ih =>
    obtain ⟨hk, hl⟩ := List.nodup_cons.mp hl
    have hlimit : (s.tickSlot k).recallLimit = s.recallLimit := by rw [tickSlot_only_slots]
    rw [List.foldl_cons, ih hl, hlimit, tickSlot_slot]
    by_cases hj : j = k
    · subst hj
      simp [hk]
    · simp [hj]

/-- Every slot's record after the slots have taken a tick. -/
theorem tickSlots_slot (s : State) (j : SlotId) :
    (allSlots.foldl State.tickSlot s).slot j = (s.slot j).ticked s.recallLimit :=
  (foldl_tickSlot_slot allSlots (List.nodup_finRange 8) s j).trans (if_pos (List.mem_finRange j))

/-! ## What every claim keeps -/

/-- From a state with a property, the claim leaves one with it. -/
abbrev Keeps (P : State → Prop) (s t : State) : Prop := P s → P t

section
variable {P : State → Prop} (hdeed : ∀ {s t}, Deed s t → P s → P t)
  (htimeOut : ∀ s k, s.dueOf k = .timeout → P s → P (s.timeOut k))
  (hwalk : ∀ s, P s → P s.endWalk) (hreset : P State.reset)

theorem dueOf_eq_due {s : State} {k : SlotId} {x : DueEvent} (h : s.dueOf k = x) (hx : x ≠ .nothing) :
    (s.slot k).state = .active ∧ (s.slot k).due = x := by
  unfold State.dueOf at h
  split at h
  · next hactive => exact ⟨hactive, h⟩
  · exact absurd h.symm hx

include hdeed htimeOut in
theorem takeDue_keeps (s : State) (k : SlotId) (h : P s) : P (s.takeDue k) := by
  unfold State.takeDue
  split
  · exact h
  · next hdue => exact (takeReminder_deeds (dueOf_eq_due hdue nofun).2).keeps hdeed h
  · next hdue => exact htimeOut s k hdue h

include hdeed htimeOut hwalk in
theorem catchUp_keeps {s : State} (h : P s) : P s.catchUp := by
  unfold State.catchUp
  split
  · split
    · exact hwalk s h
    · exact h
  · exact foldl_invariant P State.takeDue (takeDue_keeps hdeed htimeOut) allSlots s h

include hdeed hreset in
/-- A soft reset leaves no trace of a change. -/
theorem softReset_keeps (s : State) : P s.softReset := by
  have hports : ∀ t : State, (allPorts.foldl State.softResetPort t).slots = t.slots :=
    foldl_keeps State.slots State.softResetPort (fun t p => by
      unfold State.softResetPort; split <;> rfl) allPorts
  have hledger : ∀ t : State, t.slots = [] → t.beginWalk.ledger = State.reset.ledger := fun t ht => by
    have hslots : t.beginWalk.slots = [] := ht
    unfold State.ledger
    rw [hslots]
    rfl
  refine hdeed (.other (s := State.reset) ?_) hreset
  unfold State.softReset
  exact hledger _ (hports _)

include hdeed hreset in
theorem writeRegister_keeps {s : State} (h : P s) (offset : BitVec 8) (value : Word) :
    P (s.writeRegister offset value) := by
  have hother : ∀ {t : State}, t.ledger = s.ledger → P t := fun ht => hdeed (.other ht) h
  unfold State.writeRegister
  split
  · split
    · exact softReset_keeps hdeed hreset s
    · exact h
  · exact hother rfl
  · exact hother rfl
  · unfold State.stage
    split
    · exact hother rfl
    · exact h
  · unfold State.postCommand
    split <;> exact hother rfl
  · unfold State.popCompletion
    split
    · exact h
    · exact hother rfl
  · exact hother rfl
  · exact hother rfl
  · exact hother rfl
  · exact h

theorem whenReleased_keeps {s : State} {f : State → State} (hf : P s → P (f s)) (h : P s) :
    P (s.whenReleased f) := by
  unfold State.whenReleased
  split
  · exact h
  · exact hf h

theorem whenServing_keeps {s : State} {f : State → State} (hf : P s → P (f s)) (h : P s) :
    P (s.whenServing f) := by
  unfold State.whenServing
  split
  · exact h
  · exact hf h

end

end Sys2Proof.Machine
end

section
/-! SUPPORT. The commands as runs of deeds, and an invariant of every step from what deeds, timeouts and ticks
keep. -/

namespace Sys2Proof.Machine

/-! ## Commands of the command engine -/

theorem post_deeds (s : State) (c : Completion) : Deeds s (s.post c) := deeds_of_ledger rfl

theorem takeCommand_deeds (s : State) : Deeds s s.takeCommand := deeds_of_ledger rfl

theorem addChecked_deeds (s : State) (r : CmdRecord) (c : ContextId) (v : NewValues) :
    Deeds s (s.addChecked r c v) := by
  have hadd : ∀ (t : State) (w : WindowId), Deeds t (t.applyAdd w c (localBaseOperand r) v) := fun t w => by
    have hdrop : Deeds t (t.dropHolders w (t.window w).holders) := deeds_of_ledger (dropHolders_ledger t w _)
    have hgrant : ∀ (t : State) (g : GrantPart), Deeds t (t.writeGrant w g) :=
      fun _ _ => deeds_of_ledger rfl
    unfold State.applyAdd
    exact (((hdrop.trans (setWindowList_deeds _ c _)).tail (.context _ c (by exact fun h => h))).tail
      (.unname _ w (by rfl) (by exact nofun))).trans (hgrant _ _)
  have htake := takeCommand_deeds s
  unfold State.addChecked
  dsimp only
  split
  · exact deeds_of_ledger rfl
  split
  · exact deeds_of_ledger rfl
  split
  · exact deeds_of_ledger rfl
  split
  · exact deeds_of_ledger rfl
  · exact (htake.trans (hadd _ _)).trans (post_deeds _ _)

theorem addWindow_deeds (s : State) (r : CmdRecord) : Deeds s (s.addWindow r) := by
  unfold State.addWindow
  split
  · split
    · exact addChecked_deeds s r _ _
    · exact deeds_of_ledger rfl
  · exact deeds_of_ledger rfl

theorem openContext_deeds (s : State) (r : CmdRecord) : Deeds s (s.openContext r) := by
  have hempty : ∀ a, hasAgent (0 : AgentSet) a = true → hasAgent (0 : AgentSet) a = true := fun _ h => h
  have htake := takeCommand_deeds s
  unfold State.openContext
  split
  · exact deeds_of_ledger rfl
  split
  · exact deeds_of_ledger rfl
  split
  · exact deeds_of_ledger rfl
  · exact ((htake.tail (.context _ _ fun _ => hempty)).trans (setWindowList_deeds _ _ [])).trans
      (post_deeds _ _)

theorem joinContext_deeds (s : State) (r : CmdRecord) : Deeds s (s.joinContext r) := by
  have htake := takeCommand_deeds s
  unfold State.joinContext
  split
  · exact deeds_of_ledger rfl
  split
  · exact deeds_of_ledger rfl
  split
  · exact deeds_of_ledger rfl
  · refine (htake.tail (.context _ _ fun h a ha => ?_)).trans (post_deeds _ _)
    rw [hasAgent_addAgent, Bool.or_eq_true]
    exact .inl (h a ha)

theorem fenceAgent_deeds (s : State) (r : CmdRecord) : Deeds s (s.fenceAgent r) := by
  have htake : ∀ l, Deeds s { s.takeCommand with fenceWait := l } := fun _ => deeds_of_ledger rfl
  unfold State.fenceAgent
  dsimp only
  split
  · exact deeds_of_ledger rfl
  split
  · exact ((htake s.fenceWait).trans (fence_deeds _ _)).trans (post_deeds _ _)
  · exact ((htake _).trans (fence_deeds _ _)).trans (finish_deeds _ _)

theorem unfenceAgent_deeds (s : State) (r : CmdRecord) : Deeds s (s.unfenceAgent r) := by
  have hplace : ∀ (t : State) a (c : Completion), t.ledger = s.ledger →
      ((match s.unfencePort a with
        | some p => t.place p (.unfence a)
        | none => t).post c).ledger = s.ledger := fun t a c ht => by
    split
    · exact (place_ledger t _ _).trans ht
    · exact ht
  unfold State.unfenceAgent
  dsimp only
  split
  · exact deeds_of_ledger rfl
  split
  · exact deeds_of_ledger (hplace _ _ _ rfl)
  · exact deeds_of_ledger rfl

theorem queryWindow_deeds (s : State) (r : CmdRecord) : Deeds s (s.queryWindow r) := by
  unfold State.queryWindow
  split
  · exact deeds_of_ledger rfl
  · exact deeds_of_ledger (readGrant_ledger s.takeCommand .query _)

theorem queryAgent_deeds (s : State) (r : CmdRecord) : Deeds s (s.queryAgent r) := by
  unfold State.queryAgent
  split <;> exact deeds_of_ledger rfl

theorem queryContext_deeds (s : State) (r : CmdRecord) : Deeds s (s.queryContext r) := by
  unfold State.queryContext
  split <;> exact deeds_of_ledger rfl

theorem enablePort_deeds (s : State) (r : CmdRecord) : Deeds s (s.enablePort r) := by
  unfold State.enablePort
  split
  · exact deeds_of_ledger rfl
  split <;> exact deeds_of_ledger rfl

theorem disablePort_deeds (s : State) (r : CmdRecord) : Deeds s (s.disablePort r) := by
  have htake := takeCommand_deeds s
  unfold State.disablePort
  split
  · exact deeds_of_ledger rfl
  · next p _ =>
    have hlink : Deeds s.takeCommand (s.takeCommand.disableLink p) := by
      unfold State.disableLink
      split
      · exact enterReinit_deeds _ p _
      · exact enterReinit_deeds _ p _
      · exact deeds_of_ledger rfl
      · exact .refl
    exact (htake.trans hlink).trans (post_deeds _ _)

theorem resetPort_deeds (s : State) (r : CmdRecord) : Deeds s (s.resetPort r) := by
  have htake := takeCommand_deeds s
  unfold State.resetPort
  split
  · exact deeds_of_ledger rfl
  split
  · exact (htake.trans (enterReinit_deeds _ _ _)).trans (post_deeds _ _)
  · exact deeds_of_ledger rfl

/-! ## Commands that are runs of deeds -/

theorem takeHead_deeds (s : State) (kind : Option CommandKind) {f : CmdRecord → State → State}
    (h : ∀ r, Deeds s (f r s)) : Deeds s (s.takeHead kind f) := by
  refine whenServing_runs ?_
  split
  · exact h _
  · exact .refl

theorem execHello_deeds (p : PortId) (s : State) : AnswersBy Deeds s (execHello p s) := by
  have htake : Deeds s (s.takeInbound p) := deeds_of_ledger rfl
  refine ⟨_, rfl, whenServing_runs ?_⟩
  split
  · split
    · exact htake.trans (takeHello_deeds _ _ _)
    · exact .refl
  · exact .refl

theorem execGoodbye_deeds (p : PortId) (s : State) : AnswersBy Deeds s (execGoodbye p s) := by
  have htake : Deeds s (s.takeInbound p) := deeds_of_ledger rfl
  refine ⟨_, rfl, whenServing_runs ?_⟩
  split
  · exact htake.trans (takeGoodbye_deeds _ _ _)
  · exact .refl

theorem execRelease_deeds (p : PortId) (s : State) : AnswersBy Deeds s (execRelease p s) := by
  have htake : Deeds s (s.takeInbound p) := deeds_of_ledger rfl
  refine ⟨_, rfl, whenServing_runs ?_⟩
  split
  · exact htake.trans (takeRelease_deeds _ _ _ _ _)
  · exact .refl

theorem execRecallAck_deeds (p : PortId) (s : State) : AnswersBy Deeds s (execRecallAck p s) := by
  have htake : Deeds s (s.takeInbound p) := deeds_of_ledger rfl
  refine ⟨_, rfl, whenServing_runs ?_⟩
  split
  · exact htake.trans (takeAck_deeds _ _ _ _)
  · exact .refl

theorem execLookup_deeds (s : State) : AnswersBy Deeds s (execLookup s) := by
  refine ⟨_, rfl, whenServing_runs ?_⟩
  split
  · split
    · exact deeds_of_ledger (serve_ledger s _ _)
    · exact .refl
  · exact .refl

theorem execReplay_deeds (s : State) : AnswersBy Deeds s (execReplay s) := by
  refine ⟨_, rfl, whenServing_runs ?_⟩
  split
  · exact deeds_of_ledger (serveReplay_ledger s _)
  · exact .refl

theorem execReadyDeparture_deeds (p : PortId) (s : State) :
    AnswersBy Deeds s (execReadyDeparture p s) := by
  refine ⟨_, rfl, whenServing_runs ?_⟩
  dsimp only
  split
  · split
    · exact deeds_of_ledger (enterUp_ledger (s.setLane p readyFrame) p)
    · exact deeds_of_ledger rfl
  · exact .refl

theorem execReinitDeparture_deeds (p : PortId) (s : State) :
    AnswersBy Deeds s (execReinitDeparture p s) := by
  refine ⟨_, rfl, whenReleased_runs ?_⟩
  dsimp only
  split
  · split <;> exact deeds_of_ledger rfl
  · exact .refl

theorem execCreditDeparture_deeds (p : PortId) (s : State) :
    AnswersBy Deeds s (execCreditDeparture p s) := by
  refine ⟨_, rfl, whenReleased_runs ?_⟩
  dsimp only
  split
  · exact deeds_of_ledger rfl
  · exact .refl

theorem execOutboundDeparture_deeds (p : PortId) (s : State) :
    AnswersBy Deeds s (execOutboundDeparture p s) := by
  refine ⟨_, rfl, whenReleased_runs ?_⟩
  dsimp only
  split
  · exact .refl
  · split
    · exact deeds_of_ledger rfl
    · exact .refl

theorem execRefill_deeds (p : PortId) (s : State) : AnswersBy Deeds s (execRefill p s) :=
  have howed : ∀ (t : State) a, Deeds t (t.refillOwed p a) :=
    fun t a => deeds_of_ledger (refillOwed_ledger t p a)
  ⟨_, rfl, whenServing_runs ((foldl_deeds howed allAgents s).trans
    (foldl_deeds (fun _ _ => refillSlot_deeds _ _ _) _ _))⟩

theorem execRecallReminder_deeds (k : SlotId) (s : State) :
    AnswersBy Deeds s (execRecallReminder k s) := by
  refine ⟨_, rfl, whenServing_runs ?_⟩
  split
  · next hdue => exact takeReminder_deeds (dueOf_eq_due hdue nofun).2
  · exact .refl

theorem execPurgeVisit_deeds (s : State) : AnswersBy Deeds s (execPurgeVisit s) := by
  have hmove : ∀ t : State, Deeds t { t with walkPosition := s.walkPosition + 1 } :=
    fun _ => deeds_of_ledger rfl
  refine ⟨_, rfl, whenServing_runs ?_⟩
  dsimp only
  split
  · exact .refl
  · refine .trans ?_ (finish_deeds _ _)
    split
    · exact hmove s
    · exact (deeds_of_ledger (dropHolders_ledger s _ _)).trans (hmove _)

theorem execScrubRead_deeds (s : State) : AnswersBy Deeds s (execScrubRead s) := by
  refine ⟨_, rfl, whenServing_runs ?_⟩
  split
  · exact deeds_of_ledger (readGrant_ledger s .scrub s.scrubPosition)
  · exact .refl

/-- A command that is neither a timeout, nor a tick, nor may reset the part or end its walk, is a run of
deeds. -/
theorem exec_deeds (c : Instr) (s : State) (hrelease : c ≠ .resetNRelease) (hwalk : c ≠ .initWalkEnd)
    (htick : c ≠ .timebaseTick) (hreset : ∀ value, c ≠ .softReset value)
    (hwrite : ∀ offset value, c ≠ .registerWriteIgnored offset value)
    (htimeOut : ∀ k, c ≠ .recallTimeout k) : AnswersBy Deeds s (exec c s) := by
  cases c with
  | resetNRelease => exact absurd rfl hrelease
  | initWalkEnd => exact absurd rfl hwalk
  | timebaseTick => exact absurd rfl htick
  | softReset value => exact absurd rfl (hreset value)
  | registerWriteIgnored offset value => exact absurd rfl (hwrite offset value)
  | recallTimeout k => exact absurd rfl (htimeOut k)
  | resetNAssert => exact ⟨_, rfl, deeds_of_ledger rfl⟩
  | storedError w bit => exact ⟨_, rfl, deeds_of_ledger rfl⟩
  | readyReceived p f => exact ⟨_, rfl, whenReleased_runs (receive_deeds s p f)⟩
  | creditReceived p f => exact ⟨_, rfl, whenReleased_runs (receive_deeds s p f)⟩
  | reinitReceived p f => exact ⟨_, rfl, whenReleased_runs (receive_deeds s p f)⟩
  | agentMessageArrival p f => exact ⟨_, rfl, whenReleased_runs (receive_deeds s p f)⟩
  | hello p => exact execHello_deeds p s
  | goodbye p => exact execGoodbye_deeds p s
  | release p => exact execRelease_deeds p s
  | recallAck p => exact execRecallAck_deeds p s
  | lookup => exact execLookup_deeds s
  | replay => exact execReplay_deeds s
  | readyDeparture p => exact execReadyDeparture_deeds p s
  | reinitDeparture p => exact execReinitDeparture_deeds p s
  | creditDeparture p => exact execCreditDeparture_deeds p s
  | outboundDeparture p => exact execOutboundDeparture_deeds p s
  | refill p => exact execRefill_deeds p s
  | recallReminder k => exact execRecallReminder_deeds k s
  | scrubRead => exact execScrubRead_deeds s
  | purgeVisit => exact execPurgeVisit_deeds s
  | badCommand => exact ⟨_, rfl, takeHead_deeds s _ fun _ => deeds_of_ledger rfl⟩
  | openContext => exact ⟨_, rfl, takeHead_deeds s _ fun r => openContext_deeds s r⟩
  | closeContext =>
    exact ⟨_, rfl, takeHead_deeds s _ fun r => carryOut_deeds _ _ r fun _ _ => leaverIsMember_of_close⟩
  | join => exact ⟨_, rfl, takeHead_deeds s _ fun r => joinContext_deeds s r⟩
  | leave =>
    exact ⟨_, rfl, takeHead_deeds s _ fun r => carryOut_deeds _ _ r fun _ _ => judgeLeave_member⟩
  | addWindow => exact ⟨_, rfl, takeHead_deeds s _ fun r => addWindow_deeds s r⟩
  | modifyWindow =>
    exact ⟨_, rfl, takeHead_deeds s _ fun r => carryOut_deeds _ _ r fun _ _ => leaverIsMember_of_modify⟩
  | retireWindow =>
    exact ⟨_, rfl, takeHead_deeds s _ fun r => carryOut_deeds _ _ r fun _ _ => leaverIsMember_of_retire⟩
  | fenceAgent => exact ⟨_, rfl, takeHead_deeds s _ fun r => fenceAgent_deeds s r⟩
  | unfenceAgent => exact ⟨_, rfl, takeHead_deeds s _ fun r => unfenceAgent_deeds s r⟩
  | queryWindow => exact ⟨_, rfl, takeHead_deeds s _ fun r => queryWindow_deeds s r⟩
  | queryAgent => exact ⟨_, rfl, takeHead_deeds s _ fun r => queryAgent_deeds s r⟩
  | queryContext => exact ⟨_, rfl, takeHead_deeds s _ fun r => queryContext_deeds s r⟩
  | portEnable => exact ⟨_, rfl, takeHead_deeds s _ fun r => enablePort_deeds s r⟩
  | portDisable => exact ⟨_, rfl, takeHead_deeds s _ fun r => disablePort_deeds s r⟩
  | portReset => exact ⟨_, rfl, takeHead_deeds s _ fun r => resetPort_deeds s r⟩
  | cmdWordWrite value =>
    refine ⟨_, rfl, whenReleased_runs ?_⟩
    unfold State.stage
    split
    · exact deeds_of_ledger rfl
    · exact .refl
  | cmdPost value =>
    refine ⟨_, rfl, whenReleased_runs ?_⟩
    unfold State.postCommand
    split <;> exact deeds_of_ledger rfl
  | cplWordRead =>
    refine ⟨_, rfl, ?_⟩
    split
    · exact deeds_of_ledger rfl
    · unfold State.readCompletion
      split <;> exact deeds_of_ledger rfl
  | cplPop value =>
    refine ⟨_, rfl, whenReleased_runs ?_⟩
    unfold State.popCompletion
    split
    · exact .refl
    · exact deeds_of_ledger rfl
  | attnCauseWrite value => exact ⟨_, rfl, whenReleased_runs (deeds_of_ledger rfl)⟩
  | attnEnableWrite value => exact ⟨_, rfl, whenReleased_runs (deeds_of_ledger rfl)⟩
  | recallLimitWrite value => exact ⟨_, rfl, whenReleased_runs (deeds_of_ledger rfl)⟩
  | scrubIntervalWrite value => exact ⟨_, rfl, whenReleased_runs (deeds_of_ledger rfl)⟩
  | faultClear value => exact ⟨_, rfl, whenReleased_runs (deeds_of_ledger rfl)⟩

/-! ## Invariants of every step -/

/-- An invariant of the changes in flight that deeds and timeouts, the walk's end, the resets and this tick
keep, every command keeps. -/
theorem exec_keeps_of_deeds {P : State → Prop} (hdeed : ∀ {s t}, Deed s t → P s → P t)
    (htimeOut : ∀ s k, s.dueOf k = .timeout → P s → P (s.timeOut k))
    (hwalk : ∀ s, P s → P s.endWalk) (hreset : P State.reset) {s : State} (htick : P s → P s.ticked)
    (c : Instr) : AnswersBy (Keeps P) s (exec c s) := by
  by_cases hc : c ≠ .resetNRelease ∧ c ≠ .initWalkEnd ∧ c ≠ .timebaseTick ∧
      (∀ value, c ≠ .softReset value) ∧ (∀ offset value, c ≠ .registerWriteIgnored offset value) ∧
      ∀ k, c ≠ .recallTimeout k
  · obtain ⟨h1, h2, h3, h4, h5, h6⟩ := hc
    obtain ⟨t, ht, hrun⟩ := exec_deeds c s h1 h2 h3 h4 h5 h6
    exact ⟨t, ht, hrun.keeps hdeed⟩
  cases c with
  | resetNRelease =>
    refine ⟨_, rfl, fun h => ?_⟩
    split
    · exact hdeed (.other (s := State.reset) rfl) hreset
    · exact h
  | initWalkEnd =>
    refine ⟨_, rfl, whenReleased_keeps fun h => ?_⟩
    split
    · exact hwalk s h
    · exact h
  | timebaseTick => exact ⟨_, rfl, whenReleased_keeps htick⟩
  | softReset value =>
    refine ⟨_, rfl, whenReleased_keeps fun h => ?_⟩
    split
    · exact softReset_keeps hdeed hreset s
    · exact h
  | registerWriteIgnored offset value =>
    exact ⟨_, rfl, whenReleased_keeps fun h => writeRegister_keeps hdeed hreset h offset value⟩
  | recallTimeout k =>
    refine ⟨_, rfl, whenServing_keeps fun h => ?_⟩
    split
    · next hdue => exact htimeOut s k hdue h
    · exact h
  | _ => exact absurd ⟨nofun, nofun, nofun, nofun, nofun, nofun⟩ hc

/-- What every command keeps, and does not read the queue of commands, every step keeps. -/
theorem step_keeps_of_exec {P : State → Prop} (hpending : ∀ s l, P s → P { s with pending := l })
    (hexec : ∀ c s, AnswersBy (Keeps P) s (exec c s)) {s t : State} (h : P s) (hstep : step s = .next t) :
    P t := by
  unfold step at hstep
  split at hstep
  · cases hstep
    exact h
  · next c rest _ =>
    obtain ⟨u, hu, hkeeps⟩ := hexec c { s with pending := rest }
    rw [hu] at hstep
    cases hstep
    exact hkeeps (hpending s rest h)

end Sys2Proof.Machine
end

section
/-! SUPPORT. Unsent sets within pending sets, leaving sets within member sets, and change slots that name their
changes, kept by every step (O57). -/

namespace Sys2Proof.Machine

/-! ## What a ledger tells -/

section
variable {s t : State}

theorem slot_of_ledger (h : t.ledger = s.ledger) (k : SlotId) : t.slot k = s.slot k := by
  rw [State.slot_eq, State.slot_eq, show t.slots = s.slots from congrArg Ledger.slots h]

theorem window_of_ledger (h : t.ledger = s.ledger) (w : WindowId) :
    (t.window w).state = (s.window w).state ∧ (t.window w).slot = (s.window w).slot :=
  Prod.ext_iff.mp (congrFun (congrArg Ledger.window h) w)

/-! ## Subsets (R24, R73) -/

theorem subsetsKept_setSlot {k : SlotId} {r : Slot} (h : SubsetsKept s)
    (hr : ∀ a, hasAgent r.unsent a = true → hasAgent r.pending a = true) : SubsetsKept (s.setSlot k r) := by
  obtain ⟨hslots, hcontexts⟩ := h
  refine ⟨fun j a => ?_, hcontexts⟩
  rw [State.setSlot_slot]
  split
  · exact hr a
  · exact hslots j a

theorem deed_subsetsKept (hd : Deed s t) (h : SubsetsKept s) : SubsetsKept t := by
  obtain ⟨hslots, hcontexts⟩ := h
  cases hd with
  | other hledger =>
    refine ⟨fun k a => ?_, leaversMembers_of_ledger hledger hcontexts⟩
    rw [slot_of_ledger hledger]
    exact hslots k a
  | slot k hr => exact subsetsKept_setSlot ⟨hslots, hcontexts⟩ (hr.unsent (hslots k))
  | remind k _ => exact subsetsKept_setSlot ⟨hslots, hcontexts⟩ (hslots k)
  | free k _ => exact subsetsKept_setSlot ⟨hslots, hcontexts⟩ (hslots k)
  | unname w _ _ => exact ⟨hslots, hcontexts⟩
  | context c hr => exact ⟨hslots, leaversMembers_setContext (hr (hcontexts c)) hcontexts⟩
  | fill k r hf =>
    refine ⟨fun j a => ?_, hf.members hcontexts⟩
    rw [hf.slot]
    split
    · rw [hf.unsent, hasAgent_zero]
      exact nofun
    · exact hslots j a

/-! ## Changes named (R1, R75) -/

/-- A slot's record may change in all but its state and its change. -/
theorem changesNamed_setSlot {k : SlotId} {r : Slot} (h : ChangesNamed s)
    (hstate : r.state = (s.slot k).state) (hsubject : r.subject = (s.slot k).subject) :
    ChangesNamed (s.setSlot k r) := fun w => by
  obtain ⟨hiff, hslot⟩ := h w
  refine ⟨hiff, fun j hj => ?_⟩
  rw [State.setSlot_slot]
  split
  · next hjk =>
    subst hjk
    rw [hstate, hsubject]
    exact hslot j hj
  · exact hslot j hj

theorem deed_changesNamed (hd : Deed s t) (h : ChangesNamed s) : ChangesNamed t := by
  cases hd with
  | other hledger =>
    intro w
    obtain ⟨hstate, hslot⟩ := window_of_ledger hledger w
    rw [hstate, hslot]
    exact ⟨(h w).1, fun k hk => by rw [slot_of_ledger hledger]; exact (h w).2 k hk⟩
  | slot k hr => exact changesNamed_setSlot h hr.state hr.subject
  | remind k _ => exact changesNamed_setSlot h rfl rfl
  | context c _ => exact h
  | unname w hslot hstate =>
    intro v
    rw [State.setWindow_window]
    split
    · exact ⟨iff_of_false hstate (not_not_intro hslot), fun k hk => by rw [hslot] at hk; cases hk⟩
    · exact h v
  | free k hfree =>
    intro w
    obtain ⟨hiff, hslot⟩ := h w
    refine ⟨hiff, fun j hj => ?_⟩
    rw [State.setSlot_slot]
    split
    · next hjk =>
      subst hjk
      exact absurd hj (hfree w (hslot j hj).2)
    · exact hslot j hj
  | fill k r hf =>
    intro w
    obtain ⟨hiff, hslot⟩ := h w
    by_cases hw : subjectWindow r.subject = some w
    · obtain ⟨hstate, hname⟩ := hf.named w hw
      rw [hstate, hname]
      refine ⟨iff_of_true rfl nofun, fun j hj => ?_⟩
      cases hj
      rw [hf.slot, if_pos rfl]
      exact ⟨hf.active, hw⟩
    · obtain ⟨hstate, hname⟩ := hf.others w hw
      rw [hstate, hname]
      refine ⟨hiff, fun j hj => ?_⟩
      have hne : j ≠ k := fun he => by
        have hactive := (hslot j hj).1
        rw [he, hf.free] at hactive
        cases hactive
      rw [hf.slot, if_neg hne]
      exact hslot j hj

/-! ## Timeouts, ticks and the walk -/

/-- Neither invariant reads of a slot more than its state, its change and its two sets. -/
theorem timeOut_subsetsKept (s : State) (k : SlotId) (h : SubsetsKept s) : SubsetsKept (s.timeOut k) :=
  (timeOut_deeds s k).keeps deed_subsetsKept
    (deed_subsetsKept (.other (lapse_ledger s k)) (subsetsKept_setSlot h fun _ ha => ha))

theorem timeOut_changesNamed (s : State) (k : SlotId) (h : ChangesNamed s) : ChangesNamed (s.timeOut k) :=
  (timeOut_deeds s k).keeps deed_changesNamed
    (deed_changesNamed (.other (lapse_ledger s k)) (changesNamed_setSlot h rfl rfl))

theorem tickSlot_subsetsKept (s : State) (k : SlotId) (h : SubsetsKept s) : SubsetsKept (s.tickSlot k) := by
  unfold State.tickSlot
  dsimp only
  split
  · exact subsetsKept_setSlot h (h.1 k)
  · exact h

theorem tickSlot_changesNamed (s : State) (k : SlotId) (h : ChangesNamed s) :
    ChangesNamed (s.tickSlot k) := by
  unfold State.tickSlot
  dsimp only
  split
  · exact changesNamed_setSlot h rfl rfl
  · exact h

theorem endWalk_subsetsKept (s : State) (h : SubsetsKept s) : SubsetsKept s.endWalk :=
  ⟨h.1, fun _ _ ha => ha⟩

theorem endWalk_changesNamed (s : State) (_ : ChangesNamed s) : ChangesNamed s.endWalk :=
  fun _ => ⟨iff_of_false nofun (not_not_intro rfl), nofun⟩

theorem reset_subsetsKept : SubsetsKept State.reset := ⟨fun _ _ ha => ha, fun _ _ ha => ha⟩

/-- An invariant that deeds, timeouts and the slots' ticks keep, a tick keeps. -/
theorem ticked_keeps {P : State → Prop} (hdeed : ∀ {s t}, Deed s t → P s → P t)
    (htimeOut : ∀ s k, s.dueOf k = .timeout → P s → P (s.timeOut k)) (hwalk : ∀ s, P s → P s.endWalk)
    (htickSlot : ∀ s k, P s → P (s.tickSlot k)) {s : State} (h : P s) : P s.ticked := by
  have hslots := foldl_invariant P State.tickSlot htickSlot allSlots _ (catchUp_keeps hdeed htimeOut hwalk h)
  exact hdeed (.other ((tickWalk_ledger _).trans (tickScrubber_ledger _))) hslots

end

/-- Settles O57: no deed takes an agent out of a pending set and not out of the unsent set, nor lets go of a
slot that a window names. -/
theorem stepKeepsSubsets : Obligations.StepKeepsSubsets := by
  refine ⟨fun s t h hstep => ?_, fun s t h hstep => ?_⟩
  · refine step_keeps_of_exec (P := SubsetsKept) (fun _ _ h => h) (fun c s => ?_) h hstep
    exact exec_keeps_of_deeds deed_subsetsKept (fun s k _ => timeOut_subsetsKept s k) endWalk_subsetsKept
      reset_subsetsKept (ticked_keeps deed_subsetsKept (fun s k _ => timeOut_subsetsKept s k)
        endWalk_subsetsKept tickSlot_subsetsKept) c
  · refine step_keeps_of_exec (P := ChangesNamed) (fun _ _ h => h) (fun c s => ?_) h hstep
    exact exec_keeps_of_deeds deed_changesNamed (fun s k _ => timeOut_changesNamed s k) endWalk_changesNamed
      (fun _ => ⟨iff_of_false nofun (not_not_intro rfl), nofun⟩)
      (ticked_keeps deed_changesNamed (fun s k _ => timeOut_changesNamed s k)
        endWalk_changesNamed tickSlot_changesNamed) c

end Sys2Proof.Machine
end

section
/-! SUPPORT. What settling leaves of a slot, and the elapsed times of the changes in flight. -/

namespace Sys2Proof.Machine

/-! ## Slots at the end of a claim -/

theorem completeSlot_recallStep (s : State) {j k : SlotId} (h : j ≠ k) :
    RecallStep (s.slot j) ((s.completeSlot k).1.slot j) := by
  rw [State.completeSlot, State.setSlot_slot, if_neg h, moveParkOf_slot]
  exact changeEffect_recallStep s _ _ j

theorem completeSlot_state (s : State) (k : SlotId) : ((s.completeSlot k).1.slot k).state = .free := by
  rw [State.completeSlot, State.setSlot_slot, if_pos rfl]

theorem leaveFirst_recallStep (s : State) (k j : SlotId) :
    RecallStep (s.slot j) ((s.leaveFirst k).slot j) := by
  unfold State.leaveFirst
  split
  · split
    · exact leaveHoldings_recallStep s _ _ j
    all_goals exact .refl _
  · exact .refl _

theorem RecallStep.emptied_slot {s t : State} {k : SlotId} (h : RecallStep (s.slot k) (t.slot k))
    (hk : s.Emptied k) : t.Emptied k := ⟨h.state.trans hk.1, h.emptied hk.2⟩

/-- A slot that is ACTIVE after its turn was not emptied before it. -/
theorem completeIfEmptied_active {x : State × List Completion} {k j : SlotId}
    (h : ((completeIfEmptied x k).1.slot j).state = .active) :
    RecallStep (x.1.slot j) ((completeIfEmptied x k).1.slot j) ∧ (j = k → ¬ x.1.Emptied j) := by
  unfold completeIfEmptied at h ⊢
  split at h
  · next hk =>
    rw [if_pos hk]
    have hne : j ≠ k := by
      rintro rfl
      rw [completeSlot_state] at h
      cases h
    exact ⟨completeSlot_recallStep x.1 hne, fun he => absurd he hne⟩
  · next hk =>
    rw [if_neg hk]
    exact ⟨.refl _, fun he => he ▸ hk⟩

theorem foldl_completeIfEmptied_active (l : List SlotId) (x : State × List Completion) (j : SlotId)
    (h : ((l.foldl completeIfEmptied x).1.slot j).state = .active) :
    RecallStep (x.1.slot j) ((l.foldl completeIfEmptied x).1.slot j) ∧ (j ∈ l → ¬ x.1.Emptied j) := by
  induction l generalizing x with
  | nil => exact ⟨.refl _, nofun⟩
  | cons k l ih =>
    obtain ⟨hrest, hlater⟩ := ih (completeIfEmptied x k) h
    obtain ⟨hfirst, hnow⟩ := completeIfEmptied_active (hrest.state.symm.trans h)
    refine ⟨hfirst.trans hrest, fun hj => ?_⟩
    rcases List.mem_cons.mp hj with hj | hj
    · exact hnow hj
    · exact fun he => hlater hj (hfirst.emptied_slot he)

/-- A slot that is ACTIVE when the changes have completed was not emptied, and lost answers alone (R91). -/
theorem completeEmptied_active {s : State} {k : SlotId} (h : (s.completeEmptied.1.slot k).state = .active) :
    RecallStep (s.slot k) (s.completeEmptied.1.slot k) ∧ ¬ s.Emptied k := by
  have hleave : RecallStep (s.slot k) ((allSlots.foldl State.leaveFirst s).slot k) :=
    foldl_invariant (fun t : State => RecallStep (s.slot k) (t.slot k)) State.leaveFirst
      (fun t j ht => ht.trans (leaveFirst_recallStep t j k)) allSlots s (.refl _)
  unfold State.completeEmptied at h ⊢
  generalize allSlots.foldl State.leaveFirst s = t at hleave h ⊢
  obtain ⟨hstep, hnot⟩ := foldl_completeIfEmptied_active allSlots (t, []) k h
  exact ⟨hleave.trans hstep, fun he => hnot (List.mem_finRange k) (hleave.emptied_slot he)⟩

theorem settle_active {s : State} {kept : Option AgentId} {late : Bool} {k : SlotId}
    (h : ((s.settle kept late).slot k).state = .active) :
    RecallStep (s.slot k) ((s.settle kept late).slot k) ∧ ¬ s.Emptied k := by
  have hslot : (s.settle kept late).slot k = s.completeEmptied.1.slot k := by
    rw [State.slot_eq, settle_slots, State.slot_eq]
  rw [hslot] at h ⊢
  exact completeEmptied_active h

/-- Every emptied slot is FREE when the claim has settled. -/
theorem settle_frees {s : State} {k : SlotId} (h : s.Emptied k) (kept : Option AgentId) (late : Bool) :
    ((s.settle kept late).slot k).state = .free := by
  cases hstate : ((s.settle kept late).slot k).state with
  | free => rfl
  | active => exact absurd h (settle_active hstate).2

/-! ## Elapsed times (R86) -/

/-- Whatever an ACTIVE slot has waited is within the largest limit, and there its timeout is due; or, where a
timeout is being taken, its pending set is empty. -/
def WaitsWithin (lapsed : Prop) (s : State) : Prop :=
  ∀ k, (s.slot k).state = .active → (s.slot k).elapsed ≤ 65520 ∧
    ((s.slot k).elapsed = 65520 → (s.slot k).due = .timeout ∨ lapsed ∧ (s.slot k).pending = 0)

theorem waitsBounded_iff {s : State} : WaitsBounded s ↔ QuietInWalk s ∧ WaitsWithin False s := by
  simp only [WaitsBounded, WaitsWithin, false_and, or_false]

section
variable {lapsed : Prop} {s t : State}

theorem waitsWithin_setSlot {k : SlotId} {r : Slot} (h : WaitsWithin lapsed s)
    (hr : r.state = .active → r.elapsed ≤ 65520 ∧
      (r.elapsed = 65520 → r.due = .timeout ∨ lapsed ∧ r.pending = 0)) :
    WaitsWithin lapsed (s.setSlot k r) := fun j => by
  rw [State.setSlot_slot]
  split
  · exact hr
  · exact h j

theorem deed_waitsWithin (hd : Deed s t) (h : WaitsWithin lapsed s) : WaitsWithin lapsed t := by
  cases hd with
  | other hledger => exact fun k => by rw [slot_of_ledger hledger]; exact h k
  | slot k hr =>
    refine waitsWithin_setSlot h fun hactive => ?_
    obtain ⟨hle, hdue⟩ := h k (hr.state.symm.trans hactive)
    rw [hr.record]
    exact ⟨hle, fun he => (hdue he).imp_right fun ⟨hl, hp⟩ => ⟨hl, hr.emptied hp⟩⟩
  | remind k hreminder =>
    refine waitsWithin_setSlot h fun hactive => ?_
    obtain ⟨hle, hdue⟩ := h k hactive
    refine ⟨hle, fun he => (hdue he).imp_left fun hx => ?_⟩
    rw [hreminder] at hx
    cases hx
  | free k _ => exact waitsWithin_setSlot h nofun
  | unname w _ _ => exact h
  | context c _ => exact h
  | fill k r hf =>
    intro j
    rw [hf.slot]
    split
    · intro _
      rw [hf.elapsed]
      exact ⟨Nat.zero_le _, nofun⟩
    · exact h j

/-- The first steps of a timeout empty the slot's pending set. -/
theorem lapse_waitsWithin {k : SlotId} (hk : (s.slot k).state = .active) (h : WaitsWithin False s) :
    WaitsWithin True (s.lapse k) := by
  have hweak : WaitsWithin True s := fun j hj =>
    ⟨(h j hj).1, fun he => .inl (((h j hj).2 he).resolve_right fun hx => hx.1)⟩
  exact deed_waitsWithin (.other (lapse_ledger s k))
    (waitsWithin_setSlot hweak fun _ => ⟨(h k hk).1, fun _ => .inr ⟨trivial, rfl⟩⟩)

/-- Settling leaves no slot waiting for nobody. -/
theorem settle_waitsWithin (h : WaitsWithin True s) (kept : Option AgentId) (late : Bool) :
    WaitsWithin False (s.settle kept late) := fun k hactive => by
  obtain ⟨hstep, hnot⟩ := settle_active hactive
  have hk := hstep.state.symm.trans hactive
  obtain ⟨hle, hdue⟩ := h k hk
  rw [hstep.record]
  exact ⟨hle, fun he => .inl ((hdue he).resolve_right fun ⟨_, hp⟩ => hnot ⟨hk, hp⟩)⟩

theorem timeOut_waitsWithin {k : SlotId} (hdue : s.dueOf k = .timeout) (h : WaitsWithin False s) :
    WaitsWithin False (s.timeOut k) := by
  have hfenced := (foldl_deeds fence_deeds (agentsOf (s.slot k).pending) (s.lapse k)).keeps deed_waitsWithin
    (lapse_waitsWithin (dueOf_eq_due hdue nofun).1 h)
  unfold State.timeOut
  rw [finish_none]
  generalize (agentsOf (s.slot k).pending).foldl State.fence (s.lapse k) = u at hfenced ⊢
  exact (reconsider_deeds _ none).keeps deed_waitsWithin (settle_waitsWithin hfenced none false)

/-! ## What is due (R86, R87, R88) -/

theorem deed_dueOf (hd : Deed s t) {j : SlotId} (h : s.dueOf j = .nothing) : t.dueOf j = .nothing := by
  have hset : ∀ (k : SlotId) (r : Slot), (r.state = .active → (s.slot k).state = .active) →
      (r.due = (s.slot k).due ∨ r.due = .nothing) → (s.setSlot k r).dueOf j = .nothing := fun k r hstate hr => by
    unfold State.dueOf at h ⊢
    rw [State.setSlot_slot]
    by_cases hj : j = k
    · subst hj
      rw [if_pos rfl]
      split
      · next hactive =>
        rw [if_pos (hstate hactive)] at h
        rcases hr with hr | hr
        · exact hr.trans h
        · exact hr
      · rfl
    · rw [if_neg hj]
      exact h
  cases hd with
  | other hledger =>
    unfold State.dueOf at h ⊢
    rwa [slot_of_ledger hledger]
  | slot k hr => exact hset k _ (fun ha => hr.state.symm.trans ha) (.inl (by rw [hr.record]))
  | remind k _ => exact hset k _ (fun ha => ha) (.inr rfl)
  | free k _ => exact hset k _ nofun (.inl rfl)
  | unname w _ _ => exact h
  | context c _ => exact h
  | fill k r hf =>
    unfold State.dueOf at h ⊢
    rw [hf.slot]
    by_cases hj : j = k
    · rw [if_pos hj, hf.due, ite_self]
    · rw [if_neg hj]
      exact h

theorem dueOf_setSlot {k : SlotId} {r : Slot} (hr : r.due = .nothing) {j : SlotId}
    (h : j = k ∨ s.dueOf j = .nothing) : (s.setSlot k r).dueOf j = .nothing := by
  unfold State.dueOf at h ⊢
  rw [State.setSlot_slot]
  by_cases hj : j = k
  · rw [if_pos hj, hr, ite_self]
  · rw [if_neg hj]
    exact h.resolve_left hj

/-- After its turn a slot has nothing due, and no other slot has anything due that had nothing. -/
theorem takeDue_dueOf {k j : SlotId} (h : j = k ∨ s.dueOf j = .nothing) :
    (s.takeDue k).dueOf j = .nothing := by
  unfold State.takeDue
  split
  · next hnone =>
    rcases h with rfl | h
    · exact hnone
    · exact h
  · exact deed_dueOf (.other (takeReminder_ledger s k)) (dueOf_setSlot rfl h)
  · exact (timeOut_deeds s k).keeps (P := fun t => t.dueOf j = .nothing) (fun hd h => deed_dueOf hd h)
      (deed_dueOf (.other (lapse_ledger s k)) (dueOf_setSlot rfl h))

theorem foldl_takeDue_dueOf (l : List SlotId) {j : SlotId} (h : j ∈ l ∨ s.dueOf j = .nothing) :
    (l.foldl State.takeDue s).dueOf j = .nothing := by
  induction l generalizing s with
  | nil => exact h.resolve_left List.not_mem_nil
  | cons k l ih =>
    rcases h with h | h
    · rcases List.mem_cons.mp h with h | h
      · exact ih (.inr (takeDue_dueOf (.inl h)))
      · exact ih (.inl h)
    · exact ih (.inr (takeDue_dueOf (.inr h)))

theorem takeAllDue_nothingDue (s : State) : NothingDue s.takeAllDue :=
  fun k => foldl_takeDue_dueOf allSlots (.inl (List.mem_finRange k))

theorem takeAllDue_of_nothingDue (h : NothingDue s) : s.takeAllDue = s :=
  foldl_fixed _ _ _ fun k _ => by simp only [State.takeDue, h k]

theorem catchUp_of_serving (h : s.init = false) : s.catchUp = s.takeAllDue := by
  unfold State.catchUp
  rw [if_neg (by rw [h]; decide)]

/-! ## A tick's comparison (R86) -/

theorem dueAt_eq_timeout_iff {limit : BitVec 12} {r : Slot} :
    dueAt limit r = .timeout ↔ limit.toNat * 16 ≤ r.elapsed := by
  unfold dueAt
  split
  · next h => exact iff_of_true rfl h
  · next h => split <;> exact iff_of_false nofun h

theorem dueAt_eq_reminder_iff {limit : BitVec 12} {r : Slot} :
    dueAt limit r = .reminder ↔ r.elapsed < limit.toNat * 16 ∧ 2 ≤ limit.toNat ∧ r.reminderSent = false ∧
      limit.toNat / 2 * 16 ≤ r.elapsed := by
  unfold dueAt
  split
  · next h => exact iff_of_false nofun fun hx => Nat.not_le.mpr hx.1 h
  · next h =>
    have hlt := Nat.lt_of_not_le h
    split
    · next h' => exact iff_of_true rfl ⟨hlt, h'⟩
    · next h' => exact iff_of_false nofun fun hx => h' hx.2

/-- With nothing due, the slots' tick keeps the elapsed times within the largest limit: 4095 times 16. -/
theorem tickSlots_waitsWithin (hdue : NothingDue s) (h : WaitsWithin False s) :
    WaitsWithin False (allSlots.foldl State.tickSlot s) := fun k => by
  rw [tickSlots_slot]
  unfold Slot.ticked
  by_cases hactive : (s.slot k).state = .active
  · rw [if_pos hactive]
    intro _
    dsimp only
    obtain ⟨hle, hfull⟩ := h k hactive
    have hnothing : (s.slot k).due = .nothing := by
      have hk := hdue k
      unfold State.dueOf at hk
      rwa [if_pos hactive] at hk
    have hlt : (s.slot k).elapsed ≠ 65520 := fun he => by
      have htimeout := (hfull he).resolve_right fun hx => hx.1
      rw [hnothing] at htimeout
      cases htimeout
    refine ⟨by omega, fun he => .inl (dueAt_eq_timeout_iff.mpr ?_)⟩
    have hlimit := s.recallLimit.isLt
    dsimp only
    omega
  · rw [if_neg hactive]
    exact fun ha => absurd ha hactive

end

end Sys2Proof.Machine
end

section
/-! SUPPORT. The directory quiet in the INIT walk, and the bound on the elapsed times (O58); the tick by its
timers (O8). -/

namespace Sys2Proof.Machine

/-! ## The directory in the INIT walk (R23) -/

section
variable {s : State}

/-- In a quiet directory a port that enters REINIT takes nothing else along. -/
theorem enterReinit_of_quiet (h : QuietInWalk s) (hi : s.init = true) (p : PortId) (d : Destination) :
    s.enterReinit p d = s.discardLink p d := by
  obtain ⟨-, -, -, hagents, hslots, hpool, -, -, -, hfence, hwait, -⟩ := h hi
  have hagent : ∀ a, (s.discardLink p d).agent a = Agent.initial := fun a => by
    rw [State.agent_eq, show (s.discardLink p d).agents = s.agents from rfl, hagents]
    rfl
  have hslot : ∀ k, (s.discardLink p d).slot k = Slot.initial := fun k => by
    rw [State.slot_eq, show (s.discardLink p d).slots = s.slots from rfl, hslots]
    rfl
  have hentry : ∀ e, (s.discardLink p d).entry e = PoolEntry.initial := fun e => by
    rw [State.entry_eq, show (s.discardLink p d).pool = s.pool from rfl, hpool]
    rfl
  have hfw : (s.discardLink p d).fenceWait = [] := hfence
  have hsw : (s.discardLink p d).slotWait = false := hwait
  unfold State.enterReinit
  generalize s.discardLink p d = t at hagent hslot hentry hfw hsw ⊢
  have hdrop : t.dropEntries (fun e => e.port == p) = t := foldl_fixed _ _ _ fun e _ => by
    rw [if_neg]
    rw [hentry]
    exact fun hx => hx.1 rfl
  have hlose : t.losePorts p = t := foldl_fixed _ _ _ fun a _ => by
    rw [State.losePort, if_neg]
    rw [hagent]
    exact nofun
  rw [hdrop, hlose]
  refine finish_of_settled ⟨fun k hk => ?_, fun a ha => ?_, fun f hf => ?_, fun hw => ?_⟩ none
  · rw [State.Emptied, hslot] at hk
    exact nomatch hk.1
  · rw [hagent] at ha
    cases ha
  · rw [hfw] at hf
    cases hf
  · rw [hsw] at hw
    cases hw

theorem violation_quiet (h : QuietInWalk s) (hi : s.init = true) (p : PortId) (kind : Violation) :
    QuietInWalk (s.violation p kind) := by
  have hbank : QuietInWalk { s with linkBank := recordLink s.linkBank p kind } := h
  unfold State.violation
  rw [enterReinit_of_quiet hbank hi]
  exact h

theorem enterUp_quiet (h : QuietInWalk s) (hi : s.init = true) (p : PortId) : QuietInWalk (s.enterUp p) := by
  obtain ⟨-, -, -, hagents, -⟩ := h hi
  have hfold : ∀ t : State, t.agents = [] → allAgents.foldl (fun s a => s.announceFence p a) t = t :=
    fun t ht => foldl_fixed _ _ _ fun a _ => by
      have hagent : t.agent a = Agent.initial := by rw [State.agent_eq, ht]; rfl
      unfold State.announceFence
      dsimp only
      rw [hagent, if_neg fun hx => nomatch hx.1]
  unfold State.enterUp
  dsimp only
  rw [hfold]
  · exact h
  · exact hagents

theorem receive_quiet (h : QuietInWalk s) (hi : s.init = true) (p : PortId) (f : Frame) :
    QuietInWalk (s.receive p f) := by
  have hviolation := violation_quiet h hi p
  unfold State.receive
  split
  · split
    · exact hviolation _
    · unfold State.receiveReady
      dsimp only
      split
      · split
        · exact enterUp_quiet (s := s.setPort p _) h hi p
        · exact h
      · exact hviolation _
    · unfold State.receiveCredit
      dsimp only
      split
      · exact hviolation _
      · split
        · exact h
        · exact hviolation _
    · unfold State.receiveReinit
      dsimp only
      split
      · rw [enterReinit_of_quiet h hi]
        exact h
      · exact h
    · unfold State.receiveAgent
      dsimp only
      split
      · split
        · exact hviolation _
        · exact h
      · exact hviolation _
  · exact h

/-- The engines and the command engine's waits as a soft reset leaves them (R138). -/
def EnginesClear (s : State) : Prop :=
  s.slots = [] ∧ s.pool = [] ∧ s.parkOrders = [] ∧ s.replayList = [] ∧ s.purgeSet = 0 ∧ s.fenceWait = [] ∧
    s.slotWait = false

theorem beginWalk_quiet (h : EnginesClear s) : QuietInWalk s.beginWalk := by
  obtain ⟨hslots, hpool, horders, hlist, hset, hfence, hwait⟩ := h
  exact fun _ => ⟨rfl, rfl, rfl, rfl, hslots, hpool, horders, hlist, hset, hfence, hwait, rfl⟩

theorem softResetPort_enginesClear (h : EnginesClear s) (p : PortId) : EnginesClear (s.softResetPort p) := by
  unfold State.softResetPort
  split
  · exact h
  · exact h

/-- A soft reset leaves the directory quiet, its walk begun (R138). -/
theorem softReset_quiet (s : State) : QuietInWalk s.softReset :=
  beginWalk_quiet (foldl_invariant EnginesClear State.softResetPort (fun _ p h => softResetPort_enginesClear h p)
    allPorts _ ⟨rfl, rfl, rfl, rfl, rfl, rfl, rfl⟩)

theorem quiet_of_no_walk (h : s.init = false) : QuietInWalk s := fun hi => by
  rw [h] at hi
  cases hi

theorem takeAllDue_registers (s : State) : s.takeAllDue.registers = s.registers :=
  (foldl_edits takeDue_edits allSlots s).keeps_registers

theorem init_of_registers {s t : State} (h : t.registers = s.registers) : t.init = s.init :=
  congrArg Registers.init h

theorem takeAllDue_init (s : State) : s.takeAllDue.init = s.init :=
  init_of_registers (takeAllDue_registers s)

theorem ticked_init {s : State} (h : s.catchUp.init = false) : s.ticked.init = false := by
  obtain ⟨slots, hslots⟩ := foldl_tickSlot_only_slots allSlots s.catchUp
  have hscrub : (allSlots.foldl State.tickSlot s.catchUp).tickScrubber.init = false := by
    rw [tickScrubber_init, hslots]
    exact h
  unfold State.ticked State.tickWalk
  rw [if_neg (by rw [hscrub]; decide)]
  exact hscrub

/-- A tick leaves the directory quiet: outside the walk, or at its end, or with nothing to count. -/
theorem ticked_quiet (h : QuietInWalk s) : QuietInWalk s.ticked := by
  by_cases hi : s.init = true
  swap
  · have hcatch : s.catchUp.init = false := by
      rw [catchUp_of_serving (by simpa using hi), takeAllDue_init]
      simpa using hi
    exact quiet_of_no_walk (ticked_init hcatch)
  by_cases hend : Config.walkBound ≤ s.walkTicks
  · have hcatch : s.catchUp = s.endWalk := by rw [State.catchUp, if_pos hi, if_pos hend]
    exact quiet_of_no_walk (ticked_init (by rw [hcatch]; rfl))
  · have hcatch : s.catchUp = s := by rw [State.catchUp, if_pos hi, if_neg hend]
    obtain ⟨hw, hl, hc, ha, hslots, hrest⟩ := h hi
    have hfree : ∀ k, (s.slot k).state = .free := fun k => by rw [State.slot_eq, hslots]; rfl
    unfold State.ticked
    rw [hcatch, tickSlots_of_free hfree, tickScrubber_at_rest (.inl hi), State.tickWalk]
    obtain ⟨hp, ho, hr, hps, hfw, hsw, -⟩ := hrest
    split
    · exact fun _ => ⟨hw, hl, hc, ha, hslots, hp, ho, hr, hps, hfw, hsw, rfl⟩
    · exact fun _ => ⟨hw, hl, hc, ha, hslots, hp, ho, hr, hps, hfw, hsw, rfl⟩

theorem writeRegister_quiet (h : QuietInWalk s) (offset : BitVec 8) (value : Word) :
    QuietInWalk (s.writeRegister offset value) := by
  unfold State.writeRegister
  split
  · split
    · exact softReset_quiet s
    · exact h
  · exact h
  · exact h
  · unfold State.stage
    split <;> exact h
  · unfold State.postCommand
    split <;> exact h
  · unfold State.popCompletion
    split <;> exact h
  all_goals exact h

theorem whenServing_of_walk (hi : s.init = true) (f : State → State) : s.whenServing f = s :=
  if_pos (.inr hi)

/-- In the walk a command that does not act on the registers reaches the ports alone, or the code words. -/
theorem exec_quiet_in_walk (h : QuietInWalk s) (hi : s.init = true) (c : Instr)
    (hc : actsOnRegisters c = false) : ∃ t, exec c s = .next t ∧ QuietInWalk t := by
  have hnot : ∀ f : State → State, ∃ t, (Host.Outcome.next (s.whenServing f) : Host.Outcome State Fault Refusal)
      = .next t ∧ QuietInWalk t := fun f => ⟨s, by rw [whenServing_of_walk hi], h⟩
  cases c with
  | storedError w bit => exact ⟨_, rfl, h⟩
  | readyReceived p f => exact ⟨_, rfl, whenReleased_keeps (fun h => receive_quiet h hi p f) h⟩
  | creditReceived p f => exact ⟨_, rfl, whenReleased_keeps (fun h => receive_quiet h hi p f) h⟩
  | reinitReceived p f => exact ⟨_, rfl, whenReleased_keeps (fun h => receive_quiet h hi p f) h⟩
  | agentMessageArrival p f => exact ⟨_, rfl, whenReleased_keeps (fun h => receive_quiet h hi p f) h⟩
  | reinitDeparture p =>
    refine ⟨_, rfl, whenReleased_keeps (fun h => ?_) h⟩
    dsimp only
    split
    · split <;> exact h
    · exact h
  | creditDeparture p =>
    refine ⟨_, rfl, whenReleased_keeps (fun h => ?_) h⟩
    dsimp only
    split <;> exact h
  | outboundDeparture p =>
    refine ⟨_, rfl, whenReleased_keeps (fun h => ?_) h⟩
    dsimp only
    split
    · exact h
    · split <;> exact h
  | hello p | goodbye p | release p | recallAck p | lookup | replay | readyDeparture p | refill p
  | recallReminder k | recallTimeout k | purgeVisit | badCommand | openContext | closeContext | join | leave
  | addWindow | modifyWindow | retireWindow | fenceAgent | unfenceAgent | queryWindow | queryAgent
  | queryContext | portEnable | portDisable | portReset => exact hnot _
  | _ => cases hc

/-- Every command leaves the directory quiet in the walk. -/
theorem exec_quiet (c : Instr) (s : State) : AnswersBy (Keeps QuietInWalk) s (exec c s) := by
  by_cases hc : actsOnRegisters c = false
  · obtain ⟨t, ht, hedits⟩ := exec_edits c s hc
    refine ⟨t, ht, fun h => ?_⟩
    by_cases hi : s.init = true
    · obtain ⟨u, hu, hquiet⟩ := exec_quiet_in_walk h hi c hc
      rw [ht] at hu
      cases hu
      exact hquiet
    · have hinit : t.init = s.init := init_of_registers hedits.keeps_registers
      exact quiet_of_no_walk (hinit.trans (by simpa using hi))
  cases c with
  | resetNAssert => exact ⟨_, rfl, fun h => h⟩
  | resetNRelease =>
    refine ⟨_, rfl, fun h => ?_⟩
    split
    · exact fun _ => ⟨rfl, rfl, rfl, rfl, rfl, rfl, rfl, rfl, rfl, rfl, rfl, rfl⟩
    · exact h
  | initWalkEnd =>
    refine ⟨_, rfl, whenReleased_keeps fun h => ?_⟩
    split
    · exact quiet_of_no_walk rfl
    · exact h
  | softReset value =>
    refine ⟨_, rfl, whenReleased_keeps fun h => ?_⟩
    split
    · exact softReset_quiet s
    · exact h
  | timebaseTick => exact ⟨_, rfl, whenReleased_keeps ticked_quiet⟩
  | scrubRead =>
    refine ⟨_, rfl, fun h => ?_⟩
    by_cases hi : s.init = true
    · rw [whenServing_of_walk hi]
      exact h
    · refine quiet_of_no_walk ?_
      unfold State.whenServing
      dsimp only
      split
      · simpa using hi
      · split
        · rw [scrub_only_storage]
          simpa using hi
        · simpa using hi
  | cmdWordWrite value =>
    refine ⟨_, rfl, whenReleased_keeps fun h => ?_⟩
    unfold State.stage
    split <;> exact h
  | cmdPost value =>
    refine ⟨_, rfl, whenReleased_keeps fun h => ?_⟩
    unfold State.postCommand
    split <;> exact h
  | cplWordRead =>
    refine ⟨_, rfl, fun h => ?_⟩
    split
    · exact h
    · unfold State.readCompletion
      split <;> exact h
  | cplPop value =>
    refine ⟨_, rfl, whenReleased_keeps fun h => ?_⟩
    unfold State.popCompletion
    split <;> exact h
  | attnCauseWrite value => exact ⟨_, rfl, whenReleased_keeps fun h => h⟩
  | attnEnableWrite value => exact ⟨_, rfl, whenReleased_keeps fun h => h⟩
  | recallLimitWrite value => exact ⟨_, rfl, whenReleased_keeps fun h => h⟩
  | scrubIntervalWrite value => exact ⟨_, rfl, whenReleased_keeps fun h => h⟩
  | faultClear value => exact ⟨_, rfl, whenReleased_keeps fun h => h⟩
  | registerWriteIgnored offset value =>
    exact ⟨_, rfl, whenReleased_keeps fun h => writeRegister_quiet h offset value⟩
  | _ => exact absurd rfl hc

/-! ## Elapsed times, at every step (R86) -/

theorem ticked_waitsWithin (hq : QuietInWalk s) (h : WaitsWithin False s) : WaitsWithin False s.ticked := by
  have hcatch : NothingDue s.catchUp ∧ WaitsWithin False s.catchUp := by
    refine ⟨fun k => ?_, catchUp_keeps deed_waitsWithin (fun _ _ => timeOut_waitsWithin)
      (fun _ h => h) h⟩
    by_cases hi : s.init = true
    · have hslots : s.catchUp.slots = [] := by
        obtain ⟨-, -, -, -, hslots, -⟩ := hq hi
        rw [State.catchUp, if_pos hi]
        split <;> exact hslots
      unfold State.dueOf
      rw [State.slot_eq, hslots]
      rfl
    · rw [catchUp_of_serving (by simpa using hi)]
      exact takeAllDue_nothingDue s k
  exact deed_waitsWithin (.other ((tickWalk_ledger _).trans (tickScrubber_ledger _)))
    (tickSlots_waitsWithin hcatch.1 hcatch.2)

end

/-- Settles O58: a tick first takes what is due, which leaves every ACTIVE slot below the largest limit; no other
claim raises an elapsed time, and a timeout frees its slot. -/
theorem stepKeepsWaitsBounded : Obligations.StepKeepsWaitsBounded := by
  intro s t h hstep
  refine step_keeps_of_exec (P := WaitsBounded) (fun _ _ h => h) (fun c s => ?_) h hstep
  obtain ⟨t, ht, hquiet⟩ := exec_quiet c s
  refine ⟨t, ht, fun h => ?_⟩
  obtain ⟨hq, hw⟩ := waitsBounded_iff.mp h
  obtain ⟨u, hu, hwaits⟩ := exec_keeps_of_deeds (P := WaitsWithin False) deed_waitsWithin
    (fun _ _ => timeOut_waitsWithin) (fun _ h => h) (fun _ => nofun) (ticked_waitsWithin hq) c
  rw [ht] at hu
  cases hu
  exact waitsBounded_iff.mpr ⟨hquiet hq, hwaits hw⟩

/-! ## The tick by its timers (R86, R135, R167) -/

section
variable {s : State}

/-- `s` with the due events of the first `n` slots taken (log 6). -/
def State.takenDue (s : State) (n : Nat) : State := (allSlots.take n).foldl State.takeDue s

theorem takenDue_succ (s : State) (k : SlotId) : s.takenDue (k.val + 1) = (s.takenDue k.val).takeDue k := by
  have htake : allSlots.take (k.val + 1) = allSlots.take k.val ++ [k] := by
    rw [List.take_add_one]
    simp [allSlots]
  rw [State.takenDue, htake, List.foldl_append]
  rfl

theorem takenDue_eight (s : State) : s.takenDue 8 = s.takeAllDue := rfl

theorem takenDue_serving (h : Serving s) (n : Nat) : Serving (s.takenDue n) := by
  have hregisters : (s.takenDue n).registers = s.registers :=
    (foldl_edits takeDue_edits _ s).keeps_registers
  exact ⟨(congrArg Registers.resetHeld hregisters).trans h.1,
    (congrArg Registers.init hregisters).trans h.2⟩

theorem exec_recallReminder_of_due {k : SlotId} (h : Serving s) (hdue : s.dueOf k = .reminder) :
    exec (.recallReminder k) s = .next (s.takeReminder k) := by
  show Host.Outcome.next (s.whenServing _) = _
  rw [whenServing_of_serving h, if_pos hdue]

theorem exec_recallTimeout_of_due {k : SlotId} (h : Serving s) (hdue : s.dueOf k = .timeout) :
    exec (.recallTimeout k) s = .next (s.timeOut k) := by
  show Host.Outcome.next (s.whenServing _) = _
  rw [whenServing_of_serving h, if_pos hdue]

theorem exec_timebaseTick_of_serving (h : Serving s) : exec .timebaseTick s = .next s.ticked := by
  show Host.Outcome.next (s.whenReleased _) = _
  rw [whenReleased_of_released h.1]
  rfl

theorem spoil_with_slots (s : State) (slots : Table 8 Slot) (w : WindowId) :
    ({ s with slots := slots } : State).spoil w = { s.spoil w with slots := slots } := by
  by_cases hfree : (s.window w).state = .free
  · have hspoil : s.spoil w = s.writeGrant w GrantPart.zero := if_pos hfree
    rw [hspoil]
    exact if_pos hfree
  · have hspoil : s.spoil w = s.setWindow w { s.window w with poisoned := true } := if_neg hfree
    rw [hspoil]
    exact if_neg hfree

/-- A scrub read neither reads nor changes the slots. -/
theorem scrub_with_slots (s : State) (slots : Table 8 Slot) :
    ({ s with slots := slots } : State).scrub = { s.scrub with slots := slots } := by
  have hread : ({ s with slots := slots } : State).readGrant .scrub s.scrubPosition
      = ({ (s.readGrant .scrub s.scrubPosition).1 with slots := slots },
        (s.readGrant .scrub s.scrubPosition).2) := by
    have hwindow : ∀ w, ({ s with slots := slots } : State).window w = s.window w := fun _ => rfl
    have hword : ∀ w, ({ s with slots := slots } : State).word w = s.word w := fun _ => rfl
    unfold State.readGrant
    rw [hwindow, hword]
    split
    · rfl
    · split
      · rfl
      · rfl
      · exact congrArg (·, none) (spoil_with_slots (s.storageFault .uncorrected s.scrubPosition .scrub) slots _)
  unfold State.scrub
  rw [show ({ s with slots := slots } : State).scrubPosition = s.scrubPosition from rfl, hread]

/-- A tick with nothing due: the slots, then the scrubber. -/
theorem ticked_of_nothingDue (h : Serving s) (hdue : NothingDue s) :
    ∃ slots, s.ticked = ({ s with slots := slots } : State).tickScrubber ∧
      ∀ k, tableGet Slot.initial slots k = (s.slot k).ticked s.recallLimit := by
  obtain ⟨slots, hslots⟩ := foldl_tickSlot_only_slots allSlots s
  have hinit : ({ s with slots := slots } : State).tickScrubber.init = false :=
    (tickScrubber_init _).trans h.2
  refine ⟨slots, ?_, fun k => ?_⟩
  · rw [State.ticked, catchUp_of_serving h.2, takeAllDue_of_nothingDue hdue, hslots, State.tickWalk,
      if_neg (by rw [hinit]; decide)]
  · rw [← tickSlots_slot, hslots]
    rfl

end

/-- Settles O8: the outstanding events are taken slot by slot; with none left the slots and the scrubber take
the tick, and neither reads what the other changes. -/
theorem tickCountsEachTimer : Obligations.TickCountsEachTimer := by
  refine ⟨fun s hserving => ⟨s.takenDue, rfl, fun k => ?_, takenDue_serving hserving 8,
    takeAllDue_nothingDue s, ?_⟩, fun s hserving hdue => ?_⟩
  · have hserving' := takenDue_serving hserving k.val
    intro u
    rw [takenDue_succ]
    refine ⟨fun h => ?_, fun h => ?_, fun h => ?_⟩
    · rw [exec_recallReminder_of_due hserving' h, State.takeDue, h]
    · rw [exec_recallTimeout_of_due hserving' h, State.takeDue, h]
    · rw [State.takeDue, h]
  · rw [exec_timebaseTick_of_serving hserving, exec_timebaseTick_of_serving (takenDue_serving hserving 8),
      State.ticked, State.ticked, catchUp_of_serving hserving.2,
      catchUp_of_serving (takenDue_serving hserving 8).2, takenDue_eight,
      takeAllDue_of_nothingDue (takeAllDue_nothingDue s)]
  · obtain ⟨slots, ht, hslots⟩ := ticked_of_nothingDue hserving hdue
    have hslot : ∀ k, s.ticked.slot k = (s.slot k).ticked s.recallLimit := fun k => by
      rw [ht, slot_of_ledger (tickScrubber_ledger _)]
      exact hslots k
    refine ⟨s.ticked, exec_timebaseTick_of_serving hserving, fun k hk => ?_, fun k hk => ?_, ?_, ?_, ?_, ?_⟩
    · rw [hslot, Slot.ticked, if_neg hk]
    · refine ⟨dueAt s.recallLimit { s.slot k with elapsed := (s.slot k).elapsed + 1 }, ?_,
        dueAt_eq_timeout_iff, dueAt_eq_reminder_iff⟩
      rw [hslot, Slot.ticked, if_pos hk]
    · intro h0
      rw [ht, tickScrubber_at_rest (s := { s with slots := slots }) (.inr h0)]
    · intro h0 hahead
      rw [ht, tickScrubber_of_ahead (s := { s with slots := slots }) hserving.2 h0 hahead]
    · intro h0 hahead hbelow
      rw [ht, tickScrubber_of_below (s := { s with slots := slots }) hserving.2 h0 hahead
        fun hr => Nat.not_le.mpr hbelow hr.2]
    · intro h0 hahead hreached
      have hr : s.ScrubReached := ⟨h0, hreached⟩
      refine ⟨{ s.scrub with scrubAhead := true }, ?_, ?_⟩
      · show Host.Outcome.next (s.whenServing _) = _
        rw [whenServing_of_serving hserving, if_pos ⟨hahead, hr⟩]
      · rw [ht, tickScrubber_of_reached (s := { s with slots := slots }) hserving.2 hahead hr,
          scrub_with_slots, scrub_only_storage]
        simp only [hahead]

end Sys2Proof.Machine
end

section
/-! SUPPORT. A run of placements, and the messages it leaves in each outbound queue; the reminder (O9). -/

namespace Sys2Proof.Machine

/-! ## A run of placements (R122) -/

/-- The port record after a message is offered to it: placed where the port is UP with a free place, else lost. -/
def Port.offered (r : Port) (m : OutMsg) : Port :=
  if r.state = .up ∧ r.outbound.length < 32 then { r with outbound := r.outbound ++ [m] } else r

theorem Port.offered_state (r : Port) (m : OutMsg) : (r.offered m).state = r.state := by
  unfold Port.offered
  split <;> rfl

theorem offered_of_room {s : State} {p : PortId} (h : s.HasRoom p) (m : OutMsg) :
    (s.port p).offered m = { s.port p with outbound := (s.port p).outbound ++ [m] } := if_pos h

theorem offered_of_no_room {s : State} {p : PortId} (h : ¬ s.HasRoom p) (m : OutMsg) :
    (s.port p).offered m = s.port p := if_neg h

theorem Port.loaded_nil (r : Port) : r.loaded [] = r := by
  simp [Port.loaded]

theorem Port.loaded_of_full {r : Port} (h : 32 ≤ r.outbound.length) (l : List OutMsg) : r.loaded l = r := by
  simp [Port.loaded, Nat.sub_eq_zero_of_le h]

theorem Port.loaded_cons {r : Port} (h : r.outbound.length < 32) (m : OutMsg) (l : List OutMsg) :
    ({ r with outbound := r.outbound ++ [m] } : Port).loaded l = r.loaded (m :: l) := by
  have hroom : 32 - r.outbound.length = (32 - (r.outbound.length + 1)) + 1 := by omega
  simp [Port.loaded, hroom]

/-- Messages offered one after the other fill the free places of an UP port in their order. -/
theorem Port.foldl_offered (l : List OutMsg) (r : Port) :
    l.foldl Port.offered r = if r.state = .up then r.loaded l else r := by
  induction l generalizing r with
  | nil => rw [Port.loaded_nil, ite_self, List.foldl_nil]
  | cons m l ih =>
    rw [List.foldl_cons, ih, Port.offered_state]
    by_cases hup : r.state = .up
    · rw [if_pos hup, if_pos hup]
      by_cases hroom : r.outbound.length < 32
      · rw [Port.offered, if_pos ⟨hup, hroom⟩, Port.loaded_cons hroom]
      · have hfull := Nat.le_of_not_lt hroom
        rw [Port.offered, if_neg fun h => hroom h.2, Port.loaded_of_full hfull, Port.loaded_of_full hfull]
    · rw [if_neg hup, if_neg hup, Port.offered, if_neg fun h => hup h.1]

/-- The messages that a run over `l` offers to port `p`: one for each agent bound to it. -/
def offersTo (bound : AgentId → Option PortId) (m : AgentId → OutMsg) (l : List AgentId) (p : PortId) :
    List OutMsg := (l.filter fun a => bound a = some p).map m

/-- A run that offers each agent's message to the agent's port alone leaves every port loaded with its own. -/
theorem foldl_offers {P : State → Prop} {op : State → AgentId → State} {bound : AgentId → Option PortId}
    {m : AgentId → OutMsg} (hkeep : ∀ s a, P s → P (op s a))
    (hport : ∀ s a p, P s → (op s a).port p = if bound a = some p then (s.port p).offered (m a) else s.port p)
    (l : List AgentId) {s : State} (h : P s) (p : PortId) :
    (l.foldl op s).port p
      = if (s.port p).state = .up then (s.port p).loaded (offersTo bound m l p) else s.port p := by
  suffices hfold : (l.foldl op s).port p = (offersTo bound m l p).foldl Port.offered (s.port p) by
    rw [hfold, Port.foldl_offered]
  induction l generalizing s with
  | nil => rfl
  | cons a l ih =>
    rw [List.foldl_cons, ih (hkeep s a h), hport s a p h]
    by_cases ha : bound a = some p
    · simp [offersTo, ha]
    · simp [offersTo, ha]

/-- A message placed where the agent's port has room is offered to that port alone. -/
theorem placed_port {s t : State} {a : AgentId} {m : OutMsg}
    (hroom : ∀ q, s.roomFor none a = some q → t = s.place q m)
    (hnone : s.roomFor none a = none → t.ports = s.ports) (p : PortId) :
    t.port p = if (s.agent a).port = some p then (s.port p).offered m else s.port p := by
  have hiff : ∀ q, s.roomFor none a = some q ↔ (s.agent a).port = some q ∧ s.HasRoom q := fun q =>
    roomFor_eq_some_iff
  cases hfound : s.roomFor none a with
  | none =>
    have hp : t.port p = s.port p := by rw [State.port_eq, hnone hfound, ← State.port_eq]
    rw [hp]
    by_cases hbound : (s.agent a).port = some p
    · have hno : ¬ s.HasRoom p := fun h => by
        rw [(hiff p).mpr ⟨hbound, h⟩] at hfound
        cases hfound
      rw [if_pos hbound, offered_of_no_room hno]
    · rw [if_neg hbound]
  | some q =>
    obtain ⟨hbound, hq⟩ := (hiff q).mp hfound
    rw [hroom q hfound, place_port, hbound]
    by_cases hp : p = q
    · subst hp
      rw [if_pos ⟨rfl, hq⟩, if_pos rfl, offered_of_room hq]
    · rw [if_neg fun h => hp h.1, if_neg fun h => hp (Option.some.inj h).symm]

/-! ## The reminder (R87) -/

theorem remind_port (s : State) (k : SlotId) (a : AgentId) (p : PortId) :
    (s.remind k a).port p = if (s.agent a).port = some p
      then (s.port p).offered (s.recallMessage k a true) else s.port p := by
  refine placed_port (fun q hq => ?_) (fun h => ?_) p
  · rw [State.remind, hq]
  · rw [State.remind, h]

theorem remind_only_ports (s : State) (k : SlotId) (a : AgentId) :
    s.remind k a = { s with ports := (s.remind k a).ports } := by
  unfold State.remind
  split
  · exact place_only_ports s _ _
  · rfl

/-- The reminder's slot record, before its RECALLs. -/
def State.reminderTaken (s : State) (k : SlotId) : State :=
  s.setSlot k { s.slot k with reminderSent := true, due := .nothing }

theorem reminderTaken_slot (s : State) (k j : SlotId) : (s.reminderTaken k).slot j
    = if j = k then { s.slot k with reminderSent := true, due := .nothing } else s.slot j :=
  State.setSlot_slot s k j _

theorem takeReminder_eq (s : State) (k : SlotId) : s.takeReminder k =
    (agentsOf ((s.slot k).pending &&& ~~~(s.slot k).unsent)).foldl (fun t a => t.remind k a)
      (s.reminderTaken k) := by
  show (agentsOf (((s.reminderTaken k).slot k).pending &&& ~~~((s.reminderTaken k).slot k).unsent)).foldl _ _ = _
  rw [reminderTaken_slot, if_pos rfl]
  rfl

/-- `t` is `s` but for its ports. -/
def OnlyPorts (s t : State) : Prop := t = { s with ports := t.ports }

theorem remind_onlyPorts {s t : State} (h : OnlyPorts s t) (k : SlotId) (a : AgentId) :
    OnlyPorts s (t.remind k a) := by
  unfold OnlyPorts
  rw [remind_only_ports, h]

theorem takeReminder_onlyPorts (s : State) (k : SlotId) : OnlyPorts (s.reminderTaken k) (s.takeReminder k) := by
  rw [takeReminder_eq]
  exact foldl_invariant (OnlyPorts (s.reminderTaken k)) _ (fun _ a h => remind_onlyPorts h k a) _ _ rfl

theorem takeReminder_port (s : State) (k : SlotId) (p : PortId) :
    (s.takeReminder k).port p
      = if (s.port p).state = .up then (s.port p).loaded (s.remindersOn k p) else s.port p := by
  have hmessage : ∀ a, (s.reminderTaken k).recallMessage k a true = s.recallMessage k a true := fun a => by
    rw [State.recallMessage, reminderTaken_slot, if_pos rfl]
    rfl
  rw [takeReminder_eq]
  exact foldl_offers (P := OnlyPorts (s.reminderTaken k)) (fun _ a h => remind_onlyPorts h k a)
    (fun t a q h => by
      rw [remind_port, h, ← hmessage]
      rfl) _ (s := s.reminderTaken k) rfl p

/-- Settles O9: the flag is set in the one slot, and the RECALLs are a run of placements. -/
theorem reminderGoesToSentAgents : Obligations.ReminderGoesToSentAgents := by
  intro s k hserving hdue
  have honly := takeReminder_onlyPorts s k
  refine ⟨s.takeReminder k, exec_recallReminder_of_due hserving hdue, ?_, fun j => ?_, takeReminder_port s k⟩
  · rw [honly]
    rfl
  · rw [honly]
    exact reminderTaken_slot s k j

end Sys2Proof.Machine
end

section
/-! SUPPORT. Sets of agents, the removal of holders, and the serials of the changes in flight. -/

namespace Sys2Proof.Machine

/-! ## Sets of agents -/

theorem hasAgent_or (x y : AgentSet) (a : AgentId) : hasAgent (x ||| y) a = (hasAgent x a || hasAgent y a) :=
  BitVec.getLsbD_or

theorem hasAgent_and_not (x y : AgentSet) (a : AgentId) :
    hasAgent (x &&& ~~~y) a = (hasAgent x a && !hasAgent y a) := by
  simp [hasAgent]

theorem pairwise_agentsOf (x : AgentSet) : (agentsOf x).Pairwise (· < ·) :=
  List.Pairwise.filter _ (List.pairwise_lt_finRange 32)

theorem nodup_agentsOf (x : AgentSet) : (agentsOf x).Nodup :=
  List.Nodup.filter _ (List.nodup_finRange 32)

/-- A holder set of a context: the holders of the windows in its list (R29). -/
theorem hasAgent_holdersIn (s : State) (c : ContextId) (a : AgentId) :
    hasAgent (s.holdersIn c) a = true ↔ ∃ w ∈ s.windowList c, hasAgent (s.window w).holders a = true := by
  have hfold : ∀ (l : List WindowId) (x : AgentSet),
      hasAgent (l.foldl (fun x w => x ||| (s.window w).holders) x) a = true ↔
        hasAgent x a = true ∨ ∃ w ∈ l, hasAgent (s.window w).holders a = true := fun l => by
    induction l with
    | nil => simp
    | cons w l ih =>
      intro x
      rw [List.foldl_cons, ih, hasAgent_or]
      simp [or_assoc]
  exact (hfold _ 0).trans (by rw [hasAgent_zero]; simp)

/-! ## The removal of holders of one window -/

/-- `t` is `s` with holders of window `w` removed, and agent records changed. -/
structure HoldersChanged (w : WindowId) (s t : State) : Prop where
  only : t = { s with windows := t.windows, agents := t.agents }
  record : t.window w = { s.window w with holders := (t.window w).holders }
  others : ∀ v, v ≠ w → t.window v = s.window v

theorem HoldersChanged.refl (w : WindowId) (s : State) : HoldersChanged w s s := ⟨rfl, rfl, fun _ _ => rfl⟩

theorem HoldersChanged.trans {w : WindowId} {s t u : State} (h : HoldersChanged w s t)
    (h' : HoldersChanged w t u) : HoldersChanged w s u where
  only := by
    rw [h'.only, h.only]
  record := by
    rw [h'.record, h.record]
  others v hv := (h'.others v hv).trans (h.others v hv)

theorem dropHolder_changed (s : State) (w : WindowId) (a : AgentId) : HoldersChanged w s (s.dropHolder w a) := by
  by_cases h : hasAgent (s.window w).holders a = true
  · have hwindow : ∀ v, (s.dropHolder w a).window v = if v = w then
        { s.window w with holders := dropAgent (s.window w).holders a } else s.window v := fun v => by
      rw [dropHolder_of_holder h, State.setAgent_window, State.setWindow_window]
    refine ⟨?_, ?_, fun v hv => by rw [hwindow, if_neg hv]⟩
    · rw [dropHolder_of_holder h]
      rfl
    · rw [hwindow, if_pos rfl]
  · rw [dropHolder_of_no_holder (by simpa using h)]
    exact .refl w s

theorem dropHolders_changed (s : State) (w : WindowId) (x : AgentSet) : HoldersChanged w s (s.dropHolders w x) :=
  foldl_invariant (HoldersChanged w s) _ (fun t a h => h.trans (dropHolder_changed t w a)) _ s (.refl w s)

/-- Each holder removed counts one holding less. -/
theorem foldl_dropHolder_agent (w : WindowId) (l : List AgentId) (hl : l.Nodup) (s : State) (b : AgentId) :
    (l.foldl (fun s a => s.dropHolder w a) s).agent b
      = if b ∈ l ∧ hasAgent (s.window w).holders b = true then { s.agent b with held := (s.agent b).held - 1 }
        else s.agent b := by
  induction l generalizing s with
  | nil => simp
  | cons a l ih =>
    obtain ⟨ha, hl⟩ := List.nodup_cons.mp hl
    rw [List.foldl_cons, ih hl]
    by_cases hholds : hasAgent (s.window w).holders a = true
    · have hset : hasAgent ((s.dropHolder w a).window w).holders b
          = (hasAgent (s.window w).holders b && !decide (b = a)) := by
        rw [dropHolder_of_holder hholds, State.setAgent_window, State.setWindow_window, if_pos rfl,
          hasAgent_dropAgent, decide_not]
      rw [hset, dropHolder_agent_of_holder hholds]
      by_cases hb : b = a
      · subst hb
        simp [ha, hholds]
      · simp [hb]
    · have hno : hasAgent (s.window w).holders a = false := by simpa using hholds
      rw [dropHolder_of_no_holder hno]
      by_cases hb : b = a
      · subst hb
        simp [ha, hno]
      · simp [hb]

theorem dropHolders_agent (s : State) (w : WindowId) (x : AgentSet) (b : AgentId) :
    (s.dropHolders w x).agent b = if hasAgent x b = true ∧ hasAgent (s.window w).holders b = true
      then { s.agent b with held := (s.agent b).held - 1 } else s.agent b := by
  unfold State.dropHolders
  rw [foldl_dropHolder_agent w _ (nodup_agentsOf x)]
  simp only [mem_agentsOf]

/-! ## Serials (R74) -/

theorem serialInUse_iff {s : State} {x : Half} :
    s.serialInUse x = true ↔ ∃ k, (s.slot k).state = .active ∧ (s.slot k).serial = x := by
  simp [State.serialInUse, allSlots]

/-- The serial found is so many past the first one, and all before it are in use. -/
theorem serialFrom_spec (s : State) (n : Nat) (x : Half) : ∃ i ≤ n,
    s.serialFrom n x = x + BitVec.ofNat 16 i ∧ (∀ j < i, s.serialInUse (x + BitVec.ofNat 16 j) = true) ∧
      (i < n → s.serialInUse (x + BitVec.ofNat 16 i) = false) := by
  induction n generalizing x with
  | zero => exact ⟨0, le_rfl, by simp [State.serialFrom], by simp, by simp⟩
  | succ n ih =>
    by_cases hx : s.serialInUse x = true
    · obtain ⟨i, hi, hfound, hused, hfree⟩ := ih (x + 1)
      have hnext : ∀ j, x + 1 + BitVec.ofNat 16 j = x + BitVec.ofNat 16 (j + 1) := fun j => by
        rw [BitVec.add_assoc, BitVec.add_comm 1, ← BitVec.ofNat_add_ofNat]
        rfl
      refine ⟨i + 1, by omega, ?_, fun j hj => ?_, fun hlt => ?_⟩
      · rw [State.serialFrom, if_pos hx, hfound, hnext]
      · cases j with
        | zero => simpa using hx
        | succ j =>
          rw [← hnext]
          exact hused j (by omega)
      · rw [← hnext]
        exact hfree (by omega)
    · refine ⟨0, by omega, ?_, nofun, fun _ => ?_⟩
      · rw [State.serialFrom, if_neg hx]
        simp
      · simpa using hx

/-- Eight slots cannot hold nine serials in a row. -/
theorem nextSerial_spec (s : State) : ∃ i ≤ 8,
    s.nextSerial = s.serial + 1 + BitVec.ofNat 16 i ∧
      (∀ j < i, s.serialInUse (s.serial + 1 + BitVec.ofNat 16 j) = true) ∧
      s.serialInUse s.nextSerial = false := by
  obtain ⟨i, hi, hfound, hused, hfree⟩ := serialFrom_spec s 8 (s.serial + 1)
  change s.nextSerial = _ at hfound
  refine ⟨i, hi, hfound, hused, ?_⟩
  rw [hfound]
  by_cases hlt : i < 8
  · exact hfree hlt
  obtain rfl : i = 8 := by omega
  have hslot : ∀ j : Fin 8, ∃ k, (s.slot k).state = .active ∧
      (s.slot k).serial = s.serial + 1 + BitVec.ofNat 16 j.val := fun j =>
    serialInUse_iff.mp (hused j.val j.isLt)
  choose slotAt _ hserial using hslot
  have hsame : ∀ i j : Nat, i ≤ 8 → j ≤ 8 →
      s.serial + 1 + BitVec.ofNat 16 i = s.serial + 1 + BitVec.ofNat 16 j → i = j := fun i j hi hj he => by
    have hval := congrArg BitVec.toNat (add_left_cancel he)
    rw [BitVec.toNat_ofNat, BitVec.toNat_ofNat] at hval
    omega
  have hinjective : Function.Injective slotAt := fun a b hab => by
    refine Fin.ext (hsame a.val b.val (by omega) (by omega) ?_)
    rw [← hserial, ← hserial, hab]
  by_contra hx
  obtain ⟨k, -, hk⟩ := serialInUse_iff.mp (by simpa using hx)
  obtain ⟨j, rfl⟩ := (Finite.injective_iff_surjective.mp hinjective) k
  have height := hsame 8 j.val le_rfl (by omega) (hk.symm.trans (hserial j))
  omega

end Sys2Proof.Machine
end

section
/-! SUPPORT. The fill of a slot: its records, its RECALLs and its unsent set (O26). -/

namespace Sys2Proof.Machine

/-! ## The RECALLs of a fill (R79, R80) -/

theorem firstRecall_port (s : State) (k : SlotId) (a : AgentId) (p : PortId) :
    (s.firstRecall none k a).port p = if (s.agent a).port = some p
      then (s.port p).offered (s.recallMessage k a false) else s.port p := by
  refine placed_port (fun q hq => ?_) (fun h => ?_) p
  · rw [State.firstRecall, hq]
  · rw [State.firstRecall, h]
    rfl

theorem firstRecall_unsent (s : State) (k : SlotId) (a b : AgentId) :
    hasAgent ((s.firstRecall none k a).slot k).unsent b
      = (hasAgent (s.slot k).unsent b || decide (b = a ∧ s.roomFor none a = none)) := by
  unfold State.firstRecall
  cases hroom : s.roomFor none a with
  | some p =>
    dsimp only
    rw [place_slot]
    simp
  | none =>
    dsimp only
    rw [State.setSlot_slot, if_pos rfl, hasAgent_addAgent]
    simp

/-- `t` is `s` in the course of slot `k`'s first RECALLs: queues and the slot's unsent set have changed. -/
structure Recalling (k : SlotId) (s t : State) : Prop where
  only : t = { s with slots := t.slots, ports := t.ports }
  record : t.slot k = { s.slot k with unsent := (t.slot k).unsent }
  others : ∀ j, j ≠ k → t.slot j = s.slot j

section
variable {s t : State} {k : SlotId}

theorem Recalling.firstRecall (h : Recalling k s t) (a : AgentId) : Recalling k s (t.firstRecall none k a) := by
  unfold State.firstRecall
  split
  · refine ⟨?_, ?_, fun j hj => ?_⟩
    · rw [place_only_ports, h.only]
    · rw [place_slot]
      exact h.record
    · rw [place_slot]
      exact h.others j hj
  · refine ⟨?_, ?_, fun j hj => ?_⟩
    · rw [h.only]
      rfl
    · rw [State.setSlot_slot, if_pos rfl, h.record]
    · rw [State.setSlot_slot, if_neg hj]
      exact h.others j hj

theorem Recalling.foldl (l : List AgentId) (h : Recalling k s t) :
    Recalling k s (l.foldl (fun s a => s.firstRecall none k a) t) :=
  foldl_invariant (Recalling k s) _ (fun _ a h => h.firstRecall a) l t h

theorem Recalling.agent (h : Recalling k s t) (a : AgentId) : t.agent a = s.agent a := by
  rw [h.only]
  rfl

theorem Recalling.recallMessage (h : Recalling k s t) (a : AgentId) (reminder : Bool) :
    t.recallMessage k a reminder = s.recallMessage k a reminder := by
  have hscope : ∀ x, t.recallScope x = s.recallScope x := fun x => by
    rw [h.only]
    cases x <;> rfl
  rw [State.recallMessage, hscope, h.record, State.recallMessage]

/-- The first RECALLs fill the free places of the UP ports. -/
theorem foldl_firstRecall_port (s : State) (k : SlotId) (l : List AgentId) (p : PortId) :
    (l.foldl (fun s a => s.firstRecall none k a) s).port p = if (s.port p).state = .up
      then (s.port p).loaded (offersTo (fun a => (s.agent a).port) (fun a => s.recallMessage k a false) l p)
      else s.port p :=
  foldl_offers (P := Recalling k s) (fun _ a h => h.firstRecall a)
    (fun t a q h => by rw [firstRecall_port, h.agent, h.recallMessage]) l (s := s) ⟨rfl, rfl, fun _ _ => rfl⟩ p

theorem foldl_firstRecall_unsent_of_notMem (s : State) (k : SlotId) {l : List AgentId} {a : AgentId}
    (ha : a ∉ l) : hasAgent ((l.foldl (fun s a => s.firstRecall none k a) s).slot k).unsent a
      = hasAgent (s.slot k).unsent a := by
  induction l generalizing s with
  | nil => rfl
  | cons b l ih =>
    obtain ⟨hab, hal⟩ := List.ne_and_not_mem_of_not_mem_cons ha
    rw [List.foldl_cons, ih _ hal, firstRecall_unsent]
    simp [hab]

/-- Messages offered to an UP port leave it full when they and its queue reach the limit. -/
theorem Port.loaded_full_iff (r : Port) (l : List OutMsg) :
    32 ≤ (r.loaded l).outbound.length ↔ 32 ≤ r.outbound.length + l.length := by
  rw [Port.loaded, List.length_append, List.length_take]
  omega

/-- An agent finds no room when the RECALLs before its own have filled its port. -/
theorem foldl_firstRecall_roomFor_none (s : State) (k : SlotId) (l : List AgentId) (a : AgentId) :
    (l.foldl (fun s a => s.firstRecall none k a) s).roomFor none a = none ↔
      ∀ p, (s.agent a).port = some p → (s.port p).state = .up →
        32 ≤ (s.port p).outbound.length + l.countP fun b => decide ((s.agent b).port = some p) := by
  have hport := foldl_firstRecall_port s k l
  have hrecalling : Recalling k s (l.foldl (fun s a => s.firstRecall none k a) s) :=
    Recalling.foldl l ⟨rfl, rfl, fun _ _ => rfl⟩
  generalize l.foldl (fun s a => s.firstRecall none k a) s = t at hport hrecalling
  have hiff : ∀ p, t.HasRoom p ↔ (s.port p).state = .up ∧
      ¬ 32 ≤ (s.port p).outbound.length + l.countP fun b => decide ((s.agent b).port = some p) := fun p => by
    unfold State.HasRoom
    rw [hport]
    by_cases hup : (s.port p).state = .up
    · have hfull := Port.loaded_full_iff (s.port p)
        (offersTo (fun a => (s.agent a).port) (fun a => s.recallMessage k a false) l p)
      rw [offersTo, List.length_map, ← List.countP_eq_length_filter] at hfull
      rw [if_pos hup, ← hfull, Nat.not_le]
      rfl
    · rw [if_neg hup]
      exact iff_of_false (fun h => hup h.1) (fun h => hup h.1)
  rw [Option.eq_none_iff_forall_ne_some]
  refine forall_congr' fun p => ?_
  have hroom : t.roomFor none a = some p ↔ (s.agent a).port = some p ∧ t.HasRoom p := by
    rw [roomFor_eq_some_iff, hrecalling.agent]
    rfl
  rw [Ne, hroom, hiff]
  tauto

/-- A member of a set, with the members before it and those after it. -/
theorem agentsOf_split {x : AgentSet} {a : AgentId} (ha : hasAgent x a = true) :
    ∃ before after, agentsOf x = before ++ a :: after ∧ a ∉ before ∧ a ∉ after ∧
      ∀ (s : State) p, s.boundBefore x p a = before.countP fun b => decide ((s.agent b).port = some p) := by
  obtain ⟨before, after, hsplit⟩ := List.append_of_mem ((mem_agentsOf x a).mpr ha)
  have hsorted := pairwise_agentsOf x
  rw [hsplit] at hsorted
  obtain ⟨-, hright, hcross⟩ := List.pairwise_append.mp hsorted
  have hbefore : ∀ b ∈ before, b < a := fun b hb => hcross b hb a List.mem_cons_self
  have hafter : ∀ b ∈ after, a < b := fun b hb => (List.pairwise_cons.mp hright).1 b hb
  refine ⟨before, after, hsplit, fun h => lt_irrefl a (hbefore a h), fun h => lt_irrefl a (hafter a h),
    fun s p => ?_⟩
  have hrest : ((a :: after).countP fun b => decide (b < a ∧ (s.agent b).port = some p)) = 0 :=
    List.countP_eq_zero.mpr fun b hb hbound => by
      obtain ⟨hlt, -⟩ := of_decide_eq_true hbound
      rcases List.mem_cons.mp hb with rfl | hb
      · exact lt_irrefl _ hlt
      · exact lt_asymm hlt (hafter b hb)
  rw [State.boundBefore, hsplit, List.countP_append, hrest, Nat.add_zero]
  exact List.countP_congr fun b hb => by simp [hbefore b hb]

/-- Which agents of the set are left unsent: those whose port the agents before them have filled. -/
theorem foldl_firstRecall_unsent (s : State) (k : SlotId) (x : AgentSet) (a : AgentId) :
    hasAgent (((agentsOf x).foldl (fun s a => s.firstRecall none k a) s).slot k).unsent a = true ↔
      hasAgent (s.slot k).unsent a = true ∨ hasAgent x a = true ∧
        ∀ p, (s.agent a).port = some p → (s.port p).state = .up →
          32 ≤ (s.port p).outbound.length + s.boundBefore x p a := by
  by_cases ha : hasAgent x a = true
  · obtain ⟨before, after, hsplit, hbefore, hafter, hcount⟩ := agentsOf_split ha
    rw [hsplit, List.foldl_append, List.foldl_cons, foldl_firstRecall_unsent_of_notMem _ _ hafter,
      firstRecall_unsent, foldl_firstRecall_unsent_of_notMem _ _ hbefore]
    simp only [Bool.or_eq_true, decide_eq_true_eq, true_and, hcount, ha]
    rw [foldl_firstRecall_roomFor_none]
  · rw [foldl_firstRecall_unsent_of_notMem _ _ (mt (mem_agentsOf x a).mp ha)]
    exact (or_iff_left fun h => ha h.1).symm

end

/-! ## The records of a fill (R76, steps 1 to 6) -/

theorem recordsFilled_only (s : State) (k : SlotId) (z : ChangeSubject) :
    s.recordsFilled k z = { s with
      serial := s.nextSerial, windows := (s.recordsFilled k z).windows,
      contexts := (s.recordsFilled k z).contexts, agents := (s.recordsFilled k z).agents } := by
  have hdrop : ∀ (t : State) w x, t.dropHolders w x
      = { t with windows := (t.dropHolders w x).windows, agents := (t.dropHolders w x).agents } :=
    fun t w x => (dropHolders_changed t w x).only
  cases z with
  | modify w => unfold State.recordsFilled State.fillRecords; dsimp only; rw [hdrop]; rfl
  | retire w => unfold State.recordsFilled State.fillRecords; dsimp only; rw [hdrop]; rfl
  | close c => rfl
  | leave c a => rfl

/-- The records a fill makes for a change of one window: it turns CHANGING, and its PURGING holders leave. -/
structure WindowOpened (s t : State) (k : SlotId) (w : WindowId) : Prop where
  record : t.window w = { s.window w with state := .changing, slot := some k, holders := (t.window w).holders }
  others : ∀ v, v ≠ w → t.window v = s.window v
  contexts : t.contexts = s.contexts
  holders : ∀ a, hasAgent (t.window w).holders a = true ↔
    hasAgent (s.window w).holders a = true ∧ (s.agent a).state ≠ .purging
  agent : ∀ a, t.agent a = if hasAgent (s.window w).holders a = true ∧ (s.agent a).state = .purging
    then { s.agent a with held := (s.agent a).held - 1 } else s.agent a

/-- The fill's change of the window, and the removal of its PURGING holders. -/
theorem windowOpened (s : State) (k : SlotId) (w : WindowId) :
    WindowOpened s ((s.setWindow w { s.window w with state := .changing, slot := some k }).dropHolders w
      ((s.setWindow w { s.window w with state := .changing, slot := some k }).purgingOf
        ((s.setWindow w { s.window w with state := .changing, slot := some k }).window w).holders)) k w := by
  have hwindow : ∀ v, (s.setWindow w { s.window w with state := .changing, slot := some k }).window v
      = if v = w then { s.window w with state := .changing, slot := some k } else s.window v := fun v =>
    State.setWindow_window _ _ _ _
  have hagent : ∀ a, (s.setWindow w { s.window w with state := .changing, slot := some k }).agent a
      = s.agent a := fun _ => rfl
  have hcontexts : (s.setWindow w { s.window w with state := .changing, slot := some k }).contexts
      = s.contexts := rfl
  generalize s.setWindow w { s.window w with state := .changing, slot := some k } = u at *
  have hself : u.window w = { s.window w with state := .changing, slot := some k } := by
    rw [hwindow, if_pos rfl]
  have hchanged := dropHolders_changed u w (u.purgingOf (u.window w).holders)
  refine ⟨?_, fun v hv => ?_, ?_, fun a => ?_, fun a => ?_⟩
  · rw [hchanged.record, hself]
  · rw [hchanged.others v hv, hwindow, if_neg hv]
  · rw [hchanged.only]
    exact hcontexts
  · rw [hasAgent_dropHolders, hasAgent_purgingOf, hself, hagent]
    cases hasAgent (s.window w).holders a with
    | true => simp
    | false => simp
  · rw [dropHolders_agent, hasAgent_purgingOf, hself, hagent]
    simp only [Bool.and_eq_true, decide_eq_true_eq]
    exact if_congr (by tauto) rfl rfl

theorem recordsFilled_windowOpened {s : State} {k : SlotId} {z : ChangeSubject} {w : WindowId}
    (hz : z = .modify w ∨ z = .retire w) : WindowOpened s (s.recordsFilled k z) k w := by
  have h := windowOpened { s with serial := s.nextSerial } k w
  rcases hz with rfl | rfl
  · exact ⟨h.record, h.others, h.contexts, h.holders, h.agent⟩
  · exact ⟨h.record, h.others, h.contexts, h.holders, h.agent⟩

theorem recordsFilled_close_context (s : State) (k : SlotId) (c d : ContextId) :
    (s.recordsFilled k (.close c)).context d = if d = c then
      { s.context c with state := .closing, closingSlot := some k } else s.context d :=
  State.setContext_context { s with serial := s.nextSerial } c d
    { s.context c with state := .closing, closingSlot := some k }

theorem recordsFilled_leave_context (s : State) (k : SlotId) (c : ContextId) (a : AgentId) (d : ContextId) :
    (s.recordsFilled k (.leave c a)).context d = if d = c then
      { s.context c with leaving := addAgent (s.context c).leaving a } else s.context d :=
  State.setContext_context { s with serial := s.nextSerial } c d
    { s.context c with leaving := addAgent (s.context c).leaving a }

theorem recordsFilled_bound (s : State) (k : SlotId) (z : ChangeSubject) (a : AgentId) :
    ((s.recordsFilled k z).agent a).port = (s.agent a).port := by
  have hwindow : ∀ w, z = .modify w ∨ z = .retire w → ((s.recordsFilled k z).agent a).port = (s.agent a).port :=
    fun w hz => by
      rw [(recordsFilled_windowOpened hz).agent]
      split <;> rfl
  cases z with
  | modify w => exact hwindow w (.inl rfl)
  | retire w => exact hwindow w (.inr rfl)
  | close c => rfl
  | leave c b => rfl

theorem slotOpened_slot (s : State) (k : SlotId) (z : ChangeSubject) (v : NewValues) (tag : Half) (j : SlotId) :
    (s.slotOpened k z v tag).slot j = if j = k then ⟨.active, s.nextSerial, z,
      filledValues z v (s.slot k).newValues, tag, (s.recordsFilled k z).pendingOf z, 0, 0, false, 0, .nothing⟩
      else s.slot j := by
  rw [State.slotOpened, State.setSlot_slot, recordsFilled_slot, recordsFilled_slot]

theorem fillSlot_recalling (s : State) (k : SlotId) (z : ChangeSubject) (v : NewValues) (tag : Half) :
    Recalling k (s.slotOpened k z v tag) (s.fillSlot none k z v tag) := by
  rw [fillSlot_eq]
  exact .foldl _ ⟨rfl, rfl, fun _ _ => rfl⟩

/-- A filled slot: the change's own record, with the pending set and its unsent agents. -/
theorem fillSlot_slot (s : State) (k : SlotId) (z : ChangeSubject) (v : NewValues) (tag : Half) :
    (s.fillSlot none k z v tag).slot k = ⟨.active, s.nextSerial, z, filledValues z v (s.slot k).newValues, tag,
      (s.recordsFilled k z).pendingOf z, ((s.fillSlot none k z v tag).slot k).unsent, 0, false, 0, .nothing⟩ := by
  rw [(fillSlot_recalling s k z v tag).record, slotOpened_slot, if_pos rfl]

theorem fillSlot_only (s : State) (k : SlotId) (z : ChangeSubject) (v : NewValues) (tag : Half) :
    s.fillSlot none k z v tag = { s.recordsFilled k z with
      slots := (s.fillSlot none k z v tag).slots, ports := (s.fillSlot none k z v tag).ports } :=
  (fillSlot_recalling s k z v tag).only

theorem fillSlot_window (s : State) (k : SlotId) (z : ChangeSubject) (v : NewValues) (tag : Half) (w : WindowId) :
    (s.fillSlot none k z v tag).window w = (s.recordsFilled k z).window w := by
  rw [fillSlot_only]
  rfl

theorem fillSlot_agent (s : State) (k : SlotId) (z : ChangeSubject) (v : NewValues) (tag : Half) (a : AgentId) :
    (s.fillSlot none k z v tag).agent a = (s.recordsFilled k z).agent a := by
  rw [fillSlot_only]
  rfl

theorem fillSlot_port (s : State) (k : SlotId) (z : ChangeSubject) (v : NewValues) (tag : Half) (p : PortId) :
    (s.fillSlot none k z v tag).port p = if (s.port p).state = .up
      then (s.port p).loaded ((s.fillSlot none k z v tag).recallsOn k p) else s.port p := by
  have hrecalling := fillSlot_recalling s k z v tag
  have hport : ∀ q, (s.slotOpened k z v tag).port q = s.port q := fun q => by
    rw [State.slotOpened, recordsFilled_only]
    rfl
  have hrecalls : (s.fillSlot none k z v tag).recallsOn k p = offersTo
      (fun a => ((s.slotOpened k z v tag).agent a).port)
      (fun a => (s.slotOpened k z v tag).recallMessage k a false)
      (agentsOf ((s.recordsFilled k z).pendingOf z)) p := by
    unfold State.recallsOn offersTo
    rw [fillSlot_slot]
    simp only [hrecalling.agent, hrecalling.recallMessage]
  rw [hrecalls, fillSlot_eq, foldl_firstRecall_port, hport]

theorem fillSlot_unsent (s : State) (k : SlotId) (z : ChangeSubject) (v : NewValues) (tag : Half) (a : AgentId) :
    hasAgent ((s.fillSlot none k z v tag).slot k).unsent a = true ↔
      hasAgent ((s.fillSlot none k z v tag).slot k).pending a = true ∧
        ∀ p, (s.agent a).port = some p → (s.port p).state = .up →
          32 ≤ (s.port p).outbound.length
            + s.boundBefore ((s.fillSlot none k z v tag).slot k).pending p a := by
  have hport : ∀ q, (s.slotOpened k z v tag).port q = s.port q := fun q => by
    rw [State.slotOpened, recordsFilled_only]
    rfl
  have hbound : ∀ b, ((s.slotOpened k z v tag).agent b).port = (s.agent b).port := recordsFilled_bound s k z
  have hbefore : ∀ x q, (s.slotOpened k z v tag).boundBefore x q a = s.boundBefore x q a := fun x q => by
    unfold State.boundBefore
    simp only [hbound]
  have hzero : ((s.slotOpened k z v tag).slot k).unsent = 0 := by rw [slotOpened_slot, if_pos rfl]
  have hpending : ((s.fillSlot none k z v tag).slot k).pending = (s.recordsFilled k z).pendingOf z := by
    rw [fillSlot_slot]
  rw [hpending, fillSlot_eq, foldl_firstRecall_unsent, hzero, hasAgent_zero, hbound]
  simp only [hport, hbefore, Bool.false_eq_true, false_or]

/-- Settles O26: the records, then the slot, then a run of placements. -/
theorem fillStartsTheChange : Obligations.FillStartsTheChange := by
  refine ⟨fun s k a reminder => ⟨fun w hw => ?_, fun c hc => ?_⟩, fun s k x values tag => ?_, fun s => ?_⟩
  · rcases hw with hw | hw
    · rw [State.recallMessage, hw]
      rfl
    · rw [State.recallMessage, hw]
      rfl
  · rcases hc with hc | ⟨b, hc⟩
    · rw [State.recallMessage, hc]
      rfl
    · rw [State.recallMessage, hc]
      rfl
  · intro t
    have hslot : t.slot k = _ := fillSlot_slot s k x values tag
    have hwindow : ∀ w, t.window w = _ := fillSlot_window s k x values tag
    have hagent : ∀ a, t.agent a = _ := fillSlot_agent s k x values tag
    have honly : t = _ := fillSlot_only s k x values tag
    refine ⟨?_, fun j hj => ?_, ?_, fillSlot_port s k x values tag, fillSlot_unsent s k x values tag,
      fun w hw => ?_, fun w hw => ?_, fun c hc => ?_, fun c a hc => ?_⟩
    · rw [honly, recordsFilled_only]
    · rw [(fillSlot_recalling s k x values tag).others j hj, slotOpened_slot, if_neg hj]
    · rw [hslot]
    · rw [hslot, hw]
      rfl
    · have hopened := recordsFilled_windowOpened (s := s) (k := k) hw
      simp only [hwindow, hagent, hslot]
      refine ⟨hopened.record, ?_, hopened.holders, hopened.others, ?_, hopened.agent⟩
      · rcases hw with rfl | rfl
        · rfl
        · rfl
      · rw [honly]
        exact hopened.contexts
    · subst hc
      refine ⟨by rw [honly]; rfl, by rw [honly]; rfl, fun d => ?_, fun a => ?_⟩
      · rw [honly]
        exact recordsFilled_close_context s k c d
      · rw [hslot]
        show hasAgent (s.holdersIn c &&& ~~~(s.purgingOf (s.holdersIn c))) a = true ↔ _
        rw [hasAgent_and_not, hasAgent_purgingOf, ← hasAgent_holdersIn]
        cases hasAgent (s.holdersIn c) a with
        | true => simp
        | false => simp
    · subst hc
      refine ⟨by rw [honly]; rfl, by rw [honly]; rfl, fun d => ?_, ?_⟩
      · rw [honly]
        exact recordsFilled_leave_context s k c a d
      · rw [hslot]
        rfl
  · obtain ⟨i, hi, hnext, hused, hfree⟩ := nextSerial_spec s
    refine ⟨i, hi, hnext, fun j hj => serialInUse_iff.mp (hused j hj), fun k hk he => ?_⟩
    rw [serialInUse_iff.mpr ⟨k, hk, he⟩] at hfree
    cases hfree

end Sys2Proof.Machine
end

section
/-! SUPPORT. A recalled agent's answer (O23). -/

namespace Sys2Proof.Machine

/-! ## The change an answer belongs to (R82) -/

/-- Agent `a`'s answer on port `p` with the serial is one that slot `k`'s change waits for. -/
def State.Matched (s : State) (p : PortId) (a : AgentId) (serial : Half) (k : SlotId) : Prop :=
  (s.agent a).state = .active ∧ (s.agent a).port = some p ∧ (s.slot k).state = .active ∧
    (s.slot k).serial = serial ∧ hasAgent (s.slot k).pending a = true

section
variable {s : State} {p : PortId} {a : AgentId} {serial : Half}

theorem matchAck_of_bound (h : (s.agent a).state = .active ∧ (s.agent a).port = some p) :
    s.matchAck p a serial = allSlots.find? fun k => (s.slot k).state = .active && (s.slot k).serial == serial
      && hasAgent (s.slot k).pending a := if_pos h

theorem awaits_iff {k : SlotId} : ((decide ((s.slot k).state = .active) && (s.slot k).serial == serial)
    && hasAgent (s.slot k).pending a) = true ↔
      (s.slot k).state = .active ∧ (s.slot k).serial = serial ∧ hasAgent (s.slot k).pending a = true := by
  rw [Bool.and_eq_true, Bool.and_eq_true, decide_eq_true_eq, beq_iff_eq, and_assoc]

theorem matched_of_matchAck {k : SlotId} (h : s.matchAck p a serial = some k) : s.Matched p a serial k := by
  unfold State.matchAck at h
  split at h
  · next hbound =>
    have hawaits := List.find?_some h
    exact ⟨hbound.1, hbound.2, awaits_iff.mp hawaits⟩
  · cases h

theorem matchAck_eq_none_iff : s.matchAck p a serial = none ↔ ∀ k, ¬ s.Matched p a serial k := by
  constructor
  · intro h k ⟨hactive, hbound, hawaits⟩
    rw [matchAck_of_bound ⟨hactive, hbound⟩, List.find?_eq_none] at h
    exact h k (List.mem_finRange k) (awaits_iff.mpr hawaits)
  · intro h
    cases hfound : s.matchAck p a serial with
    | none => rfl
    | some k => exact absurd (matched_of_matchAck hfound) (h k)

theorem matchAck_of_unique {k : SlotId} (h : s.Matched p a serial k)
    (hunique : ∀ j, s.Matched p a serial j → j = k) : s.matchAck p a serial = some k := by
  cases hfound : s.matchAck p a serial with
  | none => exact absurd h (matchAck_eq_none_iff.mp hfound k)
  | some j => rw [hunique j (matched_of_matchAck hfound)]

end

/-! ## An answer removed (R82) -/

/-- An answer that is not the last one leaves a settled directory settled. -/
theorem dropPending_settled {s : State} {k : SlotId} {a : AgentId} (hs : Settled s)
    (hp : dropAgent (s.slot k).pending a ≠ 0) : Settled (s.dropPending k a) := by
  obtain ⟨hemptied, hheld, hfence, hwait⟩ := hs
  have hstate : ∀ j, ((s.dropPending k a).slot j).state = (s.slot j).state := fun j => by
    rw [dropPending_slot]
    split
    · next hj => rw [hj]
    · rfl
  refine ⟨fun j => ?_, hheld, hfence, fun hw => (freeSlot_congr hstate).trans (hwait hw)⟩
  rw [State.Emptied, dropPending_slot]
  split
  · exact fun he => hp he.2
  · exact hemptied j

theorem takeAck_of_none {s : State} {p : PortId} {a : AgentId} {serial : Half}
    (h : s.matchAck p a serial = none) : s.takeAck p a serial = s := by
  rw [State.takeAck, h]

theorem takeAck_of_matched {s : State} {p : PortId} {a : AgentId} {serial : Half} {k : SlotId}
    (h : s.matchAck p a serial = some k) : s.takeAck p a serial = (s.dropAnswer k a).finish none := by
  rw [State.takeAck, h]

/-- The answer of an agent to a change of no window. -/
theorem dropAnswer_of_no_window {s : State} {k : SlotId} {a : AgentId}
    (h : subjectWindow (s.slot k).subject = none) : s.dropAnswer k a = s.dropPending k a := by
  rw [State.dropAnswer, h]

theorem dropAnswer_of_window {s : State} {k : SlotId} {a : AgentId} {w : WindowId}
    (h : subjectWindow (s.slot k).subject = some w) :
    s.dropAnswer k a = (s.dropHolder w a).dropPending k a := by
  rw [← dropPending_dropHolder, State.dropAnswer, h]

/-- Settles O23: the match is the one slot that waits for the answer; where others remain to answer, the claim
ends with the answer removed. -/
theorem ackRemovesThePendingAgent : Obligations.AckRemovesThePendingAgent := by
  refine ⟨fun s p a serial => ⟨matchAck_eq_none_iff, fun k => matched_of_matchAck, fun k => matchAck_of_unique⟩,
    fun s p a serial rest hserving hup hin => ?_⟩
  intro taken
  rw [exec_recallAck_of_head hserving hup hin]
  refine ⟨fun hnone => by rw [takeAck_of_none (s := taken) hnone], fun k hmatch hsettled hpending => ?_⟩
  rw [takeAck_of_matched (s := taken) hmatch]
  refine ⟨fun hwindow => ?_, fun w hwindow hholds => ?_⟩
  · rw [dropAnswer_of_no_window (s := taken) hwindow,
      finish_of_settled (dropPending_settled (s := taken) hsettled hpending)]
    rfl
  · obtain ⟨hactive, -⟩ := matched_of_matchAck hmatch
    have hkept := (finish_dropHolder_dropPending (s := taken) hsettled hholds hpending).1 fun hlast => by
      have hpurging : (s.agent a).state = .purging := hlast.1
      rw [hactive] at hpurging
      cases hpurging
    rw [dropAnswer_of_window (s := taken) hwindow, hkept, dropHolder_of_holder (s := taken) hholds]
    rfl

end Sys2Proof.Machine
end

section
/-! SUPPORT. The change commands that take a slot (O41). -/

namespace Sys2Proof.Machine

/-! ## The judgement of a change that waits for its holders (R145, R147, R149, R150) -/

section
variable {s : State} {r : CmdRecord} {v : NewValues}

theorem windowRefusal_of_live {w : WindowId} (hlive : (s.window w).state = .live)
    (hcontext : (s.context (s.window w).context).state ≠ .closing) : windowRefusal s w = none := by
  have hfree : (s.window w).state ≠ .free := by rw [hlive]; decide
  have hchanging : (s.window w).state ≠ .changing := by rw [hlive]; decide
  rw [windowRefusal, if_neg hfree, if_neg hcontext, if_neg hchanging]

theorem judgeModify_of_needsSlot {w : WindowId} (h : NeedsSlot s r (.modify w) v) :
    judgeModify s r = .needsSlot (.modify w) v := by
  obtain ⟨-, hw, hv, hbounds, hlive, hcontext, hversion, hpoisoned, hrange, hholders⟩ := h
  have hoverlap : ¬ (v.length ≠ (s.window w).length ∧
      s.overlaps (s.window w).context (some w) (s.window w).localBase.toNat v.length.toNat = true) :=
    fun ⟨hlength, hover⟩ => by
      rw [hrange.resolve_left hlength] at hover
      cases hover
  simp only [judgeModify, hw, hv, if_pos hbounds, windowRefusal_of_live hlive hcontext]
  rw [if_neg (not_not.mpr hversion), if_neg (by rw [hpoisoned]; decide), if_neg hoverlap, if_neg hholders]

theorem judgeRetire_of_needsSlot {w : WindowId} (h : NeedsSlot s r (.retire w) v) :
    judgeRetire s r = .needsSlot (.retire w) noValues := by
  obtain ⟨-, hw, hlive, hcontext, hholders⟩ := h
  simp only [judgeRetire, hw, windowRefusal_of_live hlive hcontext]
  rw [if_neg hholders]

theorem judgeClose_of_needsSlot {c : ContextId} (h : NeedsSlot s r (.close c) v) :
    judgeClose s r = .needsSlot (.close c) noValues := by
  obtain ⟨-, hc, hopened, hquiet, hleaving, w, hw, hholders⟩ := h
  have hfree : (s.context c).state ≠ .free := by rw [hopened]; decide
  have hclosing : (s.context c).state ≠ .closing := by rw [hopened]; decide
  have hbusy : ¬ (((s.windowList c).any fun w => decide ((s.window w).state = .changing)) = true ∨
      (s.context c).leaving ≠ 0) := by
    rintro (hany | hany)
    · obtain ⟨x, hx, hchanging⟩ := List.any_eq_true.mp hany
      exact hquiet x hx (of_decide_eq_true hchanging)
    · exact hany hleaving
  have hheld : ¬ s.noHolders c = true := fun hnone =>
    hholders (eq_of_beq (List.all_eq_true.mp hnone w hw))
  simp only [judgeClose, hc]
  rw [if_neg hfree, if_neg hclosing, if_neg hbusy, if_neg hheld]

theorem judgeLeave_of_needsSlot {c : ContextId} {a : AgentId} (h : NeedsSlot s r (.leave c a) v) :
    judgeLeave s r = .needsSlot (.leave c a) noValues := by
  obtain ⟨-, hc, ha, hopened, hmember, hleaving, w, hw, hholds⟩ := h
  have hoperands : memberOperands r = some (c, a) := by rw [memberOperands, hc, ha]
  have hfree : (s.context c).state ≠ .free := by rw [hopened]; decide
  have hclosing : (s.context c).state ≠ .closing := by rw [hopened]; decide
  have hheld : s.holdsIn c a = true := List.any_eq_true.mpr ⟨w, hw, hholds⟩
  simp only [judgeLeave, hoperands]
  rw [if_neg hfree, if_neg hclosing, if_neg (by rw [hmember]; decide), if_neg (by rw [hleaving]; decide),
    if_pos hheld]

end

/-! ## Taking the lowest FREE slot (R76, R78) -/

section
variable {s : State} {r : CmdRecord} {rest : List CmdRecord} {k : SlotId}

theorem freeSlot_of_lowest (hfree : (s.slot k).state = .free)
    (hlowest : ∀ j, j < k → (s.slot j).state ≠ .free) : s.freeSlot = some k :=
  (find?_eq_some_iff_of_rising (key := id) (List.pairwise_lt_finRange 8)).mpr
    ⟨List.mem_finRange k, decide_eq_true hfree, fun j _ hj => decide_eq_false (hlowest j hj)⟩

/-- The state in which a command's own claim fills its slot. -/
theorem takeCommand_of_canTake (h : CanTake s r rest) :
    s.takeCommand = { s with cmdQueue := rest, reservations := s.reservations + 1 } := by
  obtain ⟨-, hwait, -, hqueue⟩ := h
  rw [State.takeCommand, hqueue, List.tail_cons, ← hwait]

/-- New values are those of a MODIFY alone. -/
theorem fillSlot_values (s : State) (kept : Option AgentId) (k : SlotId) {z : ChangeSubject} {v v' : NewValues}
    (hv : ∀ old, filledValues z v old = filledValues z v' old) (tag : Half) :
    s.fillSlot kept k z v tag = s.fillSlot kept k z v' tag := by
  rw [fillSlot_eq, fillSlot_eq, State.slotOpened, State.slotOpened, hv]

/-- A change with holders to ask is filled into the lowest FREE slot, and its claim settles. -/
theorem carryOut_of_needsSlot (h : CanTake s r rest) (hfree : (s.slot k).state = .free)
    (hlowest : ∀ j, j < k → (s.slot j).state ≠ .free) {z : ChangeSubject} {v v' : NewValues}
    (hv : ∀ old, filledValues z v' old = filledValues z v old) :
    s.carryOut none false r (.needsSlot z v')
      = (State.fillSlot { s with cmdQueue := rest, reservations := s.reservations + 1 } none k z v
          (recordTag r)).settle none false := by
  rw [← takeCommand_of_canTake h, ← fillSlot_values _ _ _ hv]
  simp only [State.carryOut, freeSlot_of_lowest hfree hlowest]

end

/-- A settled directory is left as it stands, whether a head waits for a slot or not. -/
theorem settle_of_settled {s : State} (hemptied : ∀ k, ¬ s.Emptied k)
    (hheld : ∀ a, (s.agent a).state = .purging → (s.agent a).held ≠ 0)
    (hfence : ∀ f ∈ s.fenceWait, (s.agent f.agent).state ≠ .fenced) : s.settle none false = s := by
  have hnone : s.nothingHeld = [] := List.filter_eq_nil_iff.mpr fun a _ => by
    simpa using hheld a
  have hdone : (s.fenceWait.filter fun f => decide ((s.agent f.agent).state = .fenced)) = [] :=
    List.filter_eq_nil_iff.mpr fun f hf => by simpa using hfence f hf
  have hkept : (s.fenceWait.filter fun f => decide ((s.agent f.agent).state ≠ .fenced)) = s.fenceWait :=
    List.filter_eq_self.mpr fun f hf => by simpa using hfence f hf
  rw [settle_of_none_emptied hemptied, State.purgesEnded, hnone, List.foldl_nil, State.fencesEnded]
  simp only [hdone, hkept]
  simp

/-- A MODIFY of a window with ACTIVE holders alone, filled in a settled directory, ends no purge. -/
theorem settle_fillSlot_modify {s : State} (hs : Settled s) {w : WindowId} (hholders : (s.window w).holders ≠ 0)
    (hactive : ∀ a, hasAgent (s.window w).holders a = true → (s.agent a).state = .active)
    (k : SlotId) (v : NewValues) (tag : Half) :
    (s.fillSlot none k (.modify w) v tag).settle none false = s.fillSlot none k (.modify w) v tag := by
  obtain ⟨hemptied, hheld, hfence, -⟩ := hs
  have hopened := recordsFilled_windowOpened (s := s) (k := k) (z := .modify w) (.inl rfl)
  have hnot : ∀ a, hasAgent (s.window w).holders a = true → (s.agent a).state ≠ .purging := fun a ha => by
    rw [hactive a ha]
    decide
  have hagent : ∀ a, (s.fillSlot none k (.modify w) v tag).agent a = s.agent a := fun a => by
    rw [fillSlot_agent, hopened.agent, if_neg fun h => hnot a h.1 h.2]
  have hset : ((s.recordsFilled k (.modify w)).window w).holders = (s.window w).holders :=
    agentSet_ext fun a => by
      rw [Bool.eq_iff_iff, hopened.holders]
      exact ⟨fun h => h.1, fun h => ⟨h, hnot a h⟩⟩
  refine settle_of_settled (fun j => ?_) (fun a => ?_) (fun f hf => ?_)
  · by_cases hj : j = k
    · rw [hj, State.Emptied, fillSlot_slot]
      exact fun h => hholders (hset.symm.trans h.2)
    · rw [State.Emptied, (fillSlot_recalling s k _ v tag).others j hj, slotOpened_slot, if_neg hj]
      exact hemptied j
  · rw [hagent]
    exact hheld a
  · rw [hagent]
    refine hfence f ?_
    rw [fillSlot_only, recordsFilled_only] at hf
    exact hf

/-- Settles O41: each command's checks pass, so it takes the lowest FREE slot. -/
theorem changesTakeTheLowestSlot : Obligations.ChangesTakeTheLowestSlot := by
  intro s r rest v k htake hfree hlowest filled
  have hfill : ∀ (z : ChangeSubject) v', (∀ old, filledValues z v' old = filledValues z v old) →
      s.carryOut none false r (.needsSlot z v') = (filled z).settle none false := fun z v' hv =>
    carryOut_of_needsSlot htake hfree hlowest hv
  refine ⟨fun w h => ?_, fun w h => ?_, fun c h => ?_, fun c a h => ?_⟩
  · have hexec : exec .modifyWindow s = .next ((filled (.modify w)).settle none false) := by
      show Host.Outcome.next (s.takeHead _ _) = _
      rw [takeHead_of_kind htake h.1, judgeModify_of_needsSlot h, hfill _ _ fun _ => rfl]
    obtain ⟨-, -, -, -, -, -, -, -, -, hholders⟩ := h
    refine ⟨hexec, fun hsettled hactive => ?_⟩
    rw [hexec]
    exact congrArg _ (settle_fillSlot_modify (s := { s with cmdQueue := rest, reservations := s.reservations + 1 })
      hsettled hholders hactive k v _)
  · show Host.Outcome.next (s.takeHead _ _) = _
    rw [takeHead_of_kind htake h.1, judgeRetire_of_needsSlot h, hfill (.retire w) noValues fun _ => rfl]
  · show Host.Outcome.next (s.takeHead _ _) = _
    rw [takeHead_of_kind htake h.1, judgeClose_of_needsSlot h, hfill (.close c) noValues fun _ => rfl]
  · show Host.Outcome.next (s.takeHead _ _) = _
    rw [takeHead_of_kind htake h.1, judgeLeave_of_needsSlot h, hfill (.leave c a) noValues fun _ => rfl]

end Sys2Proof.Machine
end

section
/-! SUPPORT. The removals of LEAVEs, window by window (R95). -/

namespace Sys2Proof.Machine

/-! ## An agent leaves one window -/

section
variable (s : State) (a : AgentId) (w : WindowId)

theorem leaveWindow_slot (j : SlotId) : (s.leaveWindow a w).slot j =
    if (s.window w).slot = some j ∧ hasAgent (s.slot j).pending a = true then { s.slot j with
      pending := dropAgent (s.slot j).pending a, unsent := dropAgent (s.slot j).unsent a }
    else s.slot j := by
  have hwindow := dropHolder_window_slot s w a w
  have hslots := dropHolder_slot s w a
  unfold State.leaveWindow
  generalize s.dropHolder w a = t at hwindow hslots ⊢
  cases hslot : (s.window w).slot with
  | none => simp [hwindow, hslot, hslots]
  | some k =>
    simp only [hwindow, hslot, hslots]
    by_cases hj : j = k
    · subst hj
      split
      · next h => rw [dropPending_slot, if_pos rfl, hslots, if_pos ⟨rfl, h⟩]
      · next h => rw [hslots, if_neg fun hx => h hx.2]
    · have hne : ¬ (some k = some j ∧ hasAgent (s.slot j).pending a = true) :=
        fun h => hj (Option.some.inj h.1).symm
      rw [if_neg hne]
      split
      · rw [dropPending_slot, if_neg hj, hslots]
      · exact hslots j

theorem leaveWindow_pending (j : SlotId) (b : AgentId) :
    hasAgent ((s.leaveWindow a w).slot j).pending b = true ↔
      hasAgent (s.slot j).pending b = true ∧ ¬ ((s.window w).slot = some j ∧ b = a) := by
  rw [leaveWindow_slot]
  split
  · next hdrop => simp [hasAgent_dropAgent, hdrop.1]
  · next hkept =>
    refine ⟨fun h => ⟨h, ?_⟩, fun h => h.1⟩
    rintro ⟨hslot, rfl⟩
    exact hkept ⟨hslot, h⟩

theorem leaveWindow_unsent (j : SlotId) (b : AgentId) :
    hasAgent ((s.leaveWindow a w).slot j).unsent b = true ↔ hasAgent (s.slot j).unsent b = true ∧
      ¬ (((s.window w).slot = some j ∧ b = a) ∧ hasAgent (s.slot j).pending b = true) := by
  rw [leaveWindow_slot]
  split
  · next hdrop =>
    by_cases hb : b = a
    · simp [hasAgent_dropAgent, hdrop.1, hdrop.2, hb]
    · simp [hasAgent_dropAgent, hb]
  · next hkept =>
    refine ⟨fun h => ⟨h, ?_⟩, fun h => h.1⟩
    rintro ⟨⟨hslot, rfl⟩, hpending⟩
    exact hkept ⟨hslot, hpending⟩

theorem leaveWindow_eq : s.leaveWindow a w
    = { s.dropHolder w a with slots := (s.leaveWindow a w).slots } := by
  unfold State.leaveWindow
  dsimp only
  split
  · split
    · rfl
    · rfl
  · rfl

theorem leaveWindow_window (v : WindowId) : (s.leaveWindow a w).window v = (s.dropHolder w a).window v := by
  rw [leaveWindow_eq]
  rfl

theorem leaveWindow_agent (b : AgentId) : (s.leaveWindow a w).agent b = (s.dropHolder w a).agent b := by
  rw [leaveWindow_eq]
  rfl

theorem hasAgent_dropHolder (v : WindowId) (b : AgentId) :
    hasAgent ((s.dropHolder w a).window v).holders b
      = (hasAgent (s.window v).holders b && !(decide (b = a) && decide (v = w))) := by
  by_cases hv : v = w
  · subst hv
    have hset := hasAgent_foldl_dropHolder v [a] s b
    simpa using hset
  · rw [(dropHolder_changed s w a).others v hv]
    simp [hv]

end

/-! ## The removals made so far -/

/-- How many windows agent `a` holds that `left` tells it has left. -/
def State.holdingsLeft (s : State) (left : AgentId → WindowId → Bool) (a : AgentId) : Nat :=
  (List.finRange 4096).countP fun w => hasAgent (s.window w).holders a && left a w

/-- `t` is `s` after each agent has left the windows that `left` tells. -/
structure LeftBy (left : AgentId → WindowId → Bool) (s t : State) : Prop where
  only : t = { s with windows := t.windows, agents := t.agents, slots := t.slots }
  window : ∀ w, t.window w = { s.window w with holders := (t.window w).holders }
  holders : ∀ w a, hasAgent (t.window w).holders a = (hasAgent (s.window w).holders a && !left a w)
  agent : ∀ a, t.agent a = { s.agent a with held := (s.agent a).held - s.holdingsLeft left a }
  slot : ∀ j, t.slot j = { s.slot j with pending := (t.slot j).pending, unsent := (t.slot j).unsent }
  pending : ∀ j a, hasAgent (t.slot j).pending a = true ↔
    hasAgent (s.slot j).pending a = true ∧ ¬ ∃ w, (s.window w).slot = some j ∧ left a w = true
  unsent : ∀ j a, hasAgent (t.slot j).unsent a = true ↔ hasAgent (s.slot j).unsent a = true ∧
    ¬ (hasAgent (s.slot j).pending a = true ∧ ∃ w, (s.window w).slot = some j ∧ left a w = true)

/-- `left`, and agent `a` has left window `w` too. -/
def leftAlso (left : AgentId → WindowId → Bool) (a : AgentId) (w : WindowId) : AgentId → WindowId → Bool :=
  fun b v => left b v || (decide (b = a) && decide (v = w))

section
variable {left : AgentId → WindowId → Bool} {s t : State}

theorem LeftBy.refl (s : State) : LeftBy (fun _ _ => false) s s where
  only := rfl
  window _ := rfl
  holders _ _ := by simp
  agent _ := by simp [State.holdingsLeft]
  slot _ := rfl
  pending _ _ := by simp
  unsent _ _ := by simp

theorem leftAlso_iff {a b : AgentId} {w v : WindowId} :
    leftAlso left a w b v = true ↔ left b v = true ∨ b = a ∧ v = w := by
  simp [leftAlso]

/-- One more holding is counted when the agent still holds the window, and none otherwise. -/
theorem LeftBy.leaveWindow_held (h : LeftBy left s t) (a : AgentId) (w : WindowId) (b : AgentId) :
    (t.leaveWindow a w).agent b = { s.agent b with
      held := (s.agent b).held - s.holdingsLeft (leftAlso left a w) b } := by
  have hsame : ∀ v, b ≠ a ∨ v ≠ w → leftAlso left a w b v = left b v := fun v hv => by
    rcases hv with hv | hv
    · simp [leftAlso, hv]
    · simp [leftAlso, hv]
  rw [leaveWindow_agent]
  by_cases hholds : hasAgent (t.window w).holders a = true
  · rw [dropHolder_agent_of_holder hholds]
    rw [h.holders, Bool.and_eq_true, Bool.not_eq_true'] at hholds
    by_cases hb : b = a
    · subst hb
      have hcount : s.holdingsLeft (leftAlso left b w) b = s.holdingsLeft left b + 1 :=
        countP_finRange_of_differ w (by simp [leftAlso, hholds.1]) (by simp [hholds.2])
          fun v hv => by rw [hsame v (.inr hv)]
      rw [if_pos rfl, h.agent, hcount, Nat.sub_add_eq]
    · rw [if_neg hb, h.agent, State.holdingsLeft, State.holdingsLeft]
      simp only [hsame _ (.inl hb)]
  · have hno : hasAgent (t.window w).holders a = false := by simpa using hholds
    have hcount : ∀ v, (hasAgent (s.window v).holders b && leftAlso left a w b v)
        = (hasAgent (s.window v).holders b && left b v) := fun v => by
      by_cases hv : b ≠ a ∨ v ≠ w
      · rw [hsame v hv]
      · obtain ⟨hba, hvw⟩ := not_or.mp hv
        obtain rfl := not_not.mp hba
        obtain rfl := not_not.mp hvw
        rw [h.holders] at hno
        cases hs : hasAgent (s.window v).holders b with
        | false => rfl
        | true =>
          rw [hs, Bool.true_and, Bool.not_eq_false'] at hno
          simp [leftAlso, hno]
    rw [dropHolder_of_no_holder hno, h.agent, State.holdingsLeft, State.holdingsLeft]
    simp only [hcount]

theorem LeftBy.leaveWindow (h : LeftBy left s t) (a : AgentId) (w : WindowId) :
    LeftBy (leftAlso left a w) s (t.leaveWindow a w) := by
  have hchanged := dropHolder_changed t w a
  have hwindow : (t.window w).slot = (s.window w).slot := by rw [h.window]
  have hslot := leaveWindow_slot t a w
  rw [hwindow] at hslot
  have hgone : ∀ j b, (∃ v, (s.window v).slot = some j ∧ leftAlso left a w b v = true) ↔
      (∃ v, (s.window v).slot = some j ∧ left b v = true) ∨ (s.window w).slot = some j ∧ b = a := fun j b => by
    simp only [leftAlso_iff, and_or_left, exists_or]
    refine or_congr Iff.rfl ⟨?_, ?_⟩
    · rintro ⟨v, hv, hb, rfl⟩
      exact ⟨hv, hb⟩
    · rintro ⟨hv, hb⟩
      exact ⟨w, hv, hb, rfl⟩
  refine ⟨?_, fun v => ?_, fun v b => ?_, h.leaveWindow_held a w, fun j => ?_, fun j b => ?_, fun j b => ?_⟩
  · rw [leaveWindow_eq, hchanged.only, h.only]
  · rw [leaveWindow_window]
    by_cases hv : v = w
    · rw [hv, hchanged.record, h.window]
    · rw [hchanged.others v hv]
      exact h.window v
  · rw [leaveWindow_window, hasAgent_dropHolder, h.holders, leftAlso, Bool.not_or, Bool.and_assoc]
  · rw [hslot]
    split
    · rw [h.slot]
    · exact h.slot j
  · rw [leaveWindow_pending, h.pending, hwindow, hgone, not_or, and_assoc]
  · have hpending := h.pending j b
    rw [leaveWindow_unsent, h.unsent, hpending, hwindow, hgone]
    generalize (hasAgent (s.slot j).pending b = true) = asked
    generalize (∃ v, (s.window v).slot = some j ∧ left b v = true) = gone
    tauto

/-- An agent that leaves the windows of a list. -/
theorem LeftBy.foldl_leaveWindow (h : LeftBy left s t) (a : AgentId) (l : List WindowId) :
    ∃ left', LeftBy left' s (l.foldl (fun s w => s.leaveWindow a w) t) ∧
      ∀ b v, left' b v = true ↔ left b v = true ∨ b = a ∧ v ∈ l := by
  induction l generalizing left t with
  | nil => exact ⟨left, h, by simp⟩
  | cons w l ih =>
    obtain ⟨left', hleft, hiff⟩ := ih (h.leaveWindow a w)
    refine ⟨left', hleft, fun b v => ?_⟩
    rw [hiff, leftAlso_iff, List.mem_cons]
    tauto

theorem LeftBy.windowList (h : LeftBy left s t) (c : ContextId) : t.windowList c = s.windowList c := by
  rw [h.only]
  rfl

theorem LeftBy.leaveHoldings (h : LeftBy left s t) (c : ContextId) (a : AgentId) :
    ∃ left', LeftBy left' s (t.leaveHoldings c a) ∧
      ∀ b v, left' b v = true ↔ left b v = true ∨ b = a ∧ v ∈ s.windowList c := by
  rw [State.leaveHoldings, h.windowList]
  exact h.foldl_leaveWindow a (s.windowList c)

/-- The removals of one LEAVE. -/
theorem leaveHoldings_leftBy (s : State) (c : ContextId) (a : AgentId) :
    LeftBy (fun b v => decide (b = a ∧ v ∈ s.windowList c)) s (s.leaveHoldings c a) := by
  obtain ⟨left, hleft, hiff⟩ := (LeftBy.refl s).leaveHoldings c a
  have heq : left = fun b v => decide (b = a ∧ v ∈ s.windowList c) := by
    funext b v
    rw [Bool.eq_iff_iff, hiff]
    simp
  exact heq ▸ hleft

end

end Sys2Proof.Machine
end

section
/-! SUPPORT. The completion of a change, by its kind (R19 to R21, R28, R65, R91 to R96). -/

namespace Sys2Proof.Machine

/-! ## The parts of a completion -/

theorem movePark_only (s : State) (w : WindowId) : s.movePark w = { s with
    pool := (s.movePark w).pool, parkOrders := (s.movePark w).parkOrders,
    replayList := (s.movePark w).replayList } := by
  have hfold : ∀ l : List EntryId,
      (l.foldl (fun s e => s.setEntry e { s.entry e with state := .replay }) s)
        = { s with pool := (l.foldl (fun s e => s.setEntry e { s.entry e with state := .replay }) s).pool } :=
    fun l => foldl_invariant (fun t : State => t = { s with pool := t.pool }) _
      (fun t e ht => by rw [ht]; rfl) l s rfl
  unfold State.movePark
  dsimp only
  rw [hfold]
  rfl

/-- The state after a completion: the effects, the park order moved, the slot FREE. -/
theorem completeSlot_fst (s : State) (k : SlotId) : (s.completeSlot k).1
    = ((s.changeEffect (s.slot k).subject (s.slot k).newValues).moveParkOf (s.slot k).subject).setSlot k
        { (s.changeEffect (s.slot k).subject (s.slot k).newValues).slot k with state := .free } := by
  rw [State.completeSlot, moveParkOf_slot]

theorem completeSlot_record (s : State) (k : SlotId) : (s.completeSlot k).2
    = ⟨commandCode (changeCommand (s.slot k).subject), changeStatus (s.slot k).fenced, (s.slot k).tag,
      changeResult s (s.changeEffect (s.slot k).subject (s.slot k).newValues) (s.slot k).subject
        (s.slot k).serial (s.slot k).fenced⟩ := rfl

theorem moveParkOf_modify (s : State) (w : WindowId) : s.moveParkOf (.modify w) = s.movePark w := rfl
theorem moveParkOf_retire (s : State) (w : WindowId) : s.moveParkOf (.retire w) = s.movePark w := rfl

theorem freeRecord_window (s : State) (w v : WindowId) : (s.freeRecord w).window v = if v = w then
    { s.window w with
      state := .free, context := 0, localBase := 0, length := 0, slot := none, poisoned := false }
    else s.window v := by
  show ((s.setWindow w _).writeGrant w GrantPart.zero).window v = _
  exact State.setWindow_window s w v _

theorem freeRecord_word (s : State) (w v : WindowId) :
    (s.freeRecord w).word v = if v = w then ⟨GrantPart.zero, []⟩ else s.word v := by
  exact State.setWord_word _ w v _

/-! ## The changes of a window -/

/-- `t` is `s` after the effects of a change of window `w` on the records. -/
structure WindowEffect (w : WindowId) (s t : State) : Prop where
  only : t = { s with
    windows := t.windows, grants := t.grants, windowLists := t.windowLists, contexts := t.contexts }
  window : ∀ v, v ≠ w → t.window v = s.window v
  word : ∀ v, v ≠ w → t.word v = s.word v

theorem applyModify_window (s : State) (w v : WindowId) (x : NewValues) :
    (s.applyModify w x).window v = if v = w then { s.window w with
      state := .live, length := x.length, version := (s.window w).version + 1, slot := none, poisoned := false }
    else s.window v :=
  State.setWindow_window s w v { s.window w with
    state := .live, length := x.length, version := (s.window w).version + 1, slot := none, poisoned := false }

theorem applyModify_word (s : State) (w v : WindowId) (x : NewValues) :
    (s.applyModify w x).word v = if v = w then ⟨x.grant, []⟩ else s.word v := State.setWord_word _ w v _

theorem applyModify_effect (s : State) (w : WindowId) (x : NewValues) : WindowEffect w s (s.applyModify w x) where
  only := rfl
  window v hv := by rw [applyModify_window, if_neg hv]
  word v hv := by rw [applyModify_word, if_neg hv]

theorem applyRetire_window (s : State) (w v : WindowId) : (s.applyRetire w).window v = if v = w then
    { s.window w with
      state := .free, context := 0, localBase := 0, length := 0, slot := none, poisoned := false }
    else s.window v := freeRecord_window _ w v

theorem applyRetire_word (s : State) (w v : WindowId) :
    (s.applyRetire w).word v = if v = w then ⟨GrantPart.zero, []⟩ else s.word v := freeRecord_word _ w v

theorem applyRetire_windowList (s : State) (w : WindowId) (c : ContextId) : (s.applyRetire w).windowList c
    = if c = (s.window w).context then (s.windowList c).erase w else s.windowList c := by
  refine (State.setWindowList_windowList s (s.window w).context c _).trans ?_
  split
  · next hc => rw [hc]
  · rfl

theorem applyRetire_context (s : State) (w : WindowId) (c : ContextId) : (s.applyRetire w).context c
    = if c = (s.window w).context then { s.context c with windowCount := (s.context c).windowCount - 1 }
      else s.context c := by
  refine (State.setContext_context _ (s.window w).context c _).trans ?_
  split
  · next hc =>
    rw [hc]
    rfl
  · rfl

theorem applyRetire_effect (s : State) (w : WindowId) : WindowEffect w s (s.applyRetire w) where
  only := rfl
  window v hv := by rw [applyRetire_window, if_neg hv]
  word v hv := by rw [applyRetire_word, if_neg hv]

/-- `t` is `s` after the completion, in slot `k`, of a change of window `w`. -/
structure WindowCompletion (k : SlotId) (w : WindowId) (s t : State) : Prop where
  only : t = { s with
    windows := t.windows, grants := t.grants, windowLists := t.windowLists, contexts := t.contexts,
    pool := t.pool, parkOrders := t.parkOrders, replayList := t.replayList, slots := t.slots }
  slot : ∀ j, t.slot j = if j = k then { s.slot k with state := .free } else s.slot j
  window : ∀ v, v ≠ w → t.window v = s.window v
  word : ∀ v, v ≠ w → t.word v = s.word v
  parkOrder : ∀ v, t.parkOrder v = if v = w then [] else s.parkOrder v
  replayList : t.replayList = s.replayList ++ s.parkOrder w
  entry : ∀ e, t.entry e = if e ∈ s.parkOrder w then { s.entry e with state := .replay } else s.entry e

theorem WindowEffect.completion {w : WindowId} {s t : State} (h : WindowEffect w s t) (k : SlotId) :
    WindowCompletion k w s ((t.movePark w).setSlot k { t.slot k with state := .free }) := by
  have hslot : ∀ j, t.slot j = s.slot j := fun j => by
    rw [h.only]
    rfl
  have hpark : ∀ v, t.parkOrder v = s.parkOrder v := fun v => by
    rw [h.only]
    rfl
  have hmove := movePark_only t w
  refine ⟨?_, fun j => ?_, fun v hv => ?_, fun v hv => ?_, fun v => ?_, ?_, fun e => ?_⟩
  · rw [hmove, h.only]
    rfl
  · rw [State.setSlot_slot, hslot k, hmove]
    exact if_congr Iff.rfl rfl (hslot j)
  · rw [hmove]
    exact h.window v hv
  · rw [hmove]
    exact h.word v hv
  · rw [← hpark v]
    exact movePark_parkOrder t w v
  · refine (movePark_replayList t w).trans ?_
    rw [hpark, h.only]
  · have hentry : t.entry e = s.entry e := by
      rw [h.only]
      rfl
    rw [← hpark w, ← hentry]
    exact movePark_entry t w e

/-! ## The completion of a CLOSE (R21) -/

/-- Window `w` loses its holders, and its record becomes FREE. -/
def State.clearWindow (s : State) (w : WindowId) : State :=
  (s.dropHolders w (s.window w).holders).freeRecord w

/-- How many windows of the list agent `a` holds. -/
def State.holdingsAmong (s : State) (l : List WindowId) (a : AgentId) : Nat :=
  (List.finRange 4096).countP fun w => decide (w ∈ l ∧ hasAgent (s.window w).holders a)

theorem applyClose_eq (s : State) (c : ContextId) : s.applyClose c =
    (((s.windowList c).foldl State.clearWindow s).setWindowList c []).setContext c
      { ((s.windowList c).foldl State.clearWindow s).context c with
        state := .free, members := 0, leaving := 0, windowCount := 0, closingSlot := none } := rfl

theorem clearWindow_window (s : State) (w v : WindowId) : (s.clearWindow w).window v
    = if v = w then ⟨.free, 0, 0, 0, (s.window w).version, 0, none, false⟩ else s.window v := by
  have hchanged := dropHolders_changed s w (s.window w).holders
  rw [State.clearWindow, freeRecord_window]
  by_cases hv : v = w
  · rw [if_pos hv, if_pos hv, hchanged.record, dropHolders_own_holders]
  · rw [if_neg hv, if_neg hv, hchanged.others v hv]

theorem clearWindow_word (s : State) (w v : WindowId) :
    (s.clearWindow w).word v = if v = w then ⟨GrantPart.zero, []⟩ else s.word v := by
  rw [State.clearWindow, freeRecord_word, (dropHolders_changed s w _).only]
  rfl

theorem clearWindow_agent (s : State) (w : WindowId) (a : AgentId) : (s.clearWindow w).agent a
    = if hasAgent (s.window w).holders a = true then { s.agent a with held := (s.agent a).held - 1 }
      else s.agent a := by
  show (s.dropHolders w (s.window w).holders).agent a = _
  rw [dropHolders_agent]
  exact if_congr and_self_iff rfl rfl

theorem clearWindow_only (s : State) (w : WindowId) : s.clearWindow w = { s with
    windows := (s.clearWindow w).windows, grants := (s.clearWindow w).grants,
    agents := (s.clearWindow w).agents } := by
  unfold State.clearWindow
  rw [(dropHolders_changed s w (s.window w).holders).only]
  rfl

section
variable (l : List WindowId) (s : State)

theorem foldl_clearWindow_window (v : WindowId) : (l.foldl State.clearWindow s).window v
    = if v ∈ l then ⟨.free, 0, 0, 0, (s.window v).version, 0, none, false⟩ else s.window v := by
  induction l generalizing s with
  | nil => simp
  | cons w l ih =>
    rw [List.foldl_cons, ih, clearWindow_window]
    by_cases hv : v = w
    · simp [hv]
    · simp [hv]

theorem foldl_clearWindow_word (v : WindowId) : (l.foldl State.clearWindow s).word v
    = if v ∈ l then ⟨GrantPart.zero, []⟩ else s.word v := by
  induction l generalizing s with
  | nil => simp
  | cons w l ih =>
    rw [List.foldl_cons, ih, clearWindow_word]
    by_cases hv : v = w
    · simp [hv]
    · simp [hv]

theorem foldl_clearWindow_agent (a : AgentId) : (l.foldl State.clearWindow s).agent a
    = { s.agent a with held := (s.agent a).held - s.holdingsAmong l a } := by
  induction l generalizing s with
  | nil => simp [State.holdingsAmong]
  | cons w l ih =>
    have hset : ∀ v, hasAgent ((s.clearWindow w).window v).holders a
        = (!decide (v = w) && hasAgent (s.window v).holders a) := fun v => by
      rw [clearWindow_window]
      by_cases hv : v = w
      · rw [if_pos hv, decide_eq_true hv]
        exact hasAgent_zero a
      · simp [hv]
    rw [List.foldl_cons, ih, clearWindow_agent]
    split
    · next hheld =>
      have hcount : s.holdingsAmong (w :: l) a = (s.clearWindow w).holdingsAmong l a + 1 :=
        countP_finRange_of_differ w (by simp [hheld]) (by simp [hset]) fun v hv => by simp [hset, hv]
      rw [hcount, Nat.sub_sub, Nat.add_comm]
    · next hheld =>
      have hcount : s.holdingsAmong (w :: l) a = (s.clearWindow w).holdingsAmong l a := by
        refine List.countP_congr fun v _ => ?_
        by_cases hv : v = w
        · simp [hv, hset, hheld]
        · simp [hv, hset]
      rw [hcount]

theorem foldl_clearWindow_only : l.foldl State.clearWindow s = { s with
    windows := (l.foldl State.clearWindow s).windows, grants := (l.foldl State.clearWindow s).grants,
    agents := (l.foldl State.clearWindow s).agents } :=
  foldl_invariant (fun t : State => t = { s with windows := t.windows, grants := t.grants, agents := t.agents })
    _ (fun t w ht => by rw [clearWindow_only, ht]) l s rfl

end

/-- `t` is `s` after the completion of a CLOSE of context `c` in slot `k`. -/
structure CloseCompletion (k : SlotId) (c : ContextId) (s t : State) : Prop where
  only : t = { s with
    windows := t.windows, grants := t.grants, windowLists := t.windowLists,
    contexts := t.contexts, agents := t.agents, slots := t.slots }
  slot : ∀ j, t.slot j = if j = k then { s.slot k with state := .free } else s.slot j
  context : ∀ d, t.context d = if d = c then { s.context c with
    state := .free, members := 0, leaving := 0, windowCount := 0, closingSlot := none } else s.context d
  windowList : ∀ d, t.windowList d = if d = c then [] else s.windowList d
  window : ∀ w, t.window w = if w ∈ s.windowList c then
    ⟨.free, 0, 0, 0, (s.window w).version, 0, none, false⟩ else s.window w
  word : ∀ w, t.word w = if w ∈ s.windowList c then ⟨GrantPart.zero, []⟩ else s.word w
  agent : ∀ a, t.agent a = { s.agent a with held := (s.agent a).held - s.holdingsIn c a }

theorem applyClose_completion (s : State) (k : SlotId) (c : ContextId) :
    CloseCompletion k c s ((s.applyClose c).setSlot k { (s.applyClose c).slot k with state := .free }) := by
  have hwindow := foldl_clearWindow_window (s.windowList c) s
  have hword := foldl_clearWindow_word (s.windowList c) s
  have hagent := foldl_clearWindow_agent (s.windowList c) s
  have honly := foldl_clearWindow_only (s.windowList c) s
  rw [applyClose_eq]
  generalize (s.windowList c).foldl State.clearWindow s = u at hwindow hword hagent honly
  have hslot : ∀ j, u.slot j = s.slot j := fun j => by
    rw [honly]
    rfl
  have hcontext : ∀ d, u.context d = s.context d := fun d => by
    rw [honly]
    rfl
  have hlist : ∀ d, u.windowList d = s.windowList d := fun d => by
    rw [honly]
    rfl
  refine ⟨?_, fun j => ?_, fun d => ?_, fun d => ?_, hwindow, hword, hagent⟩
  · rw [honly]
    rfl
  · rw [State.setSlot_slot, ← hslot, ← hslot]
    rfl
  · rw [← hcontext, ← hcontext]
    exact State.setContext_context (u.setWindowList c []) c d { u.context c with
      state := .free, members := 0, leaving := 0, windowCount := 0, closingSlot := none }
  · rw [← hlist d]
    exact State.setWindowList_windowList u c d []

/-! ## The completion of a LEAVE (R28, R95) -/

/-- `t` is `s` after the completion of a LEAVE of context `c` by agent `a` in slot `k`. -/
structure LeaveCompletion (k : SlotId) (c : ContextId) (a : AgentId) (s t : State) : Prop where
  only : t = { s with windows := t.windows, contexts := t.contexts, agents := t.agents, slots := t.slots }
  context : ∀ d, t.context d = if d = c then { s.context c with
    leaving := dropAgent (s.context c).leaving a, members := dropAgent (s.context c).members a }
    else s.context d
  window : ∀ w, t.window w = if w ∈ s.windowList c then
    { s.window w with holders := dropAgent (s.window w).holders a } else s.window w
  agent : ∀ b, t.agent b = if b = a then { s.agent a with held := (s.agent a).held - s.holdingsIn c a }
    else s.agent b
  slot : ∀ j, t.slot j = { s.slot j with
    state := if j = k then .free else (s.slot j).state, pending := (t.slot j).pending,
    unsent := (t.slot j).unsent }
  dropped : ∀ j, (∃ w ∈ s.windowList c, (s.window w).slot = some j) → hasAgent (s.slot j).pending a = true →
    (t.slot j).pending = dropAgent (s.slot j).pending a ∧ (t.slot j).unsent = dropAgent (s.slot j).unsent a
  kept : ∀ j, (∀ w ∈ s.windowList c, (s.window w).slot ≠ some j) ∨ hasAgent (s.slot j).pending a = false →
    (t.slot j).pending = (s.slot j).pending ∧ (t.slot j).unsent = (s.slot j).unsent

theorem applyLeave_eq (s : State) (c : ContextId) (a : AgentId) : s.applyLeave c a =
    (s.leaveHoldings c a).setContext c { (s.leaveHoldings c a).context c with
      leaving := dropAgent ((s.leaveHoldings c a).context c).leaving a
      members := dropAgent ((s.leaveHoldings c a).context c).members a } := rfl

/-- A holding set from which the agents of one window of the list are removed. -/
theorem dropAgent_of_left {x y : AgentSet} {a : AgentId} (h : ∀ b, hasAgent y b = true ↔
    hasAgent x b = true ∧ b ≠ a) : y = dropAgent x a :=
  agentSet_ext fun b => by
    rw [Bool.eq_iff_iff, h, hasAgent_dropAgent]
    simp

theorem agentSet_eq_of_iff {x y : AgentSet} (h : ∀ b, hasAgent y b = true ↔ hasAgent x b = true) : y = x :=
  agentSet_ext fun b => Bool.eq_iff_iff.mpr (h b)

theorem applyLeave_completion (s : State) (k : SlotId) (c : ContextId) (a : AgentId) :
    LeaveCompletion k c a s
      ((s.applyLeave c a).setSlot k { (s.applyLeave c a).slot k with state := .free }) := by
  have hleft := leaveHoldings_leftBy s c a
  rw [applyLeave_eq]
  generalize s.leaveHoldings c a = u at hleft
  have hcontext : ∀ d, u.context d = s.context d := fun d => by
    rw [hleft.only]
    rfl
  have hslot : ∀ (r : Context) j,
      (((u.setContext c r).setSlot k { (u.setContext c r).slot k with state := .free }).slot j)
      = { u.slot j with state := if j = k then .free else (u.slot j).state } := fun r j => by
    rw [State.setSlot_slot]
    by_cases hj : j = k
    · subst hj
      rw [if_pos rfl, if_pos rfl]
      rfl
    · rw [if_neg hj, if_neg hj]
      rfl
  have hgone : ∀ j b, (∃ w, (s.window w).slot = some j ∧ decide (b = a ∧ w ∈ s.windowList c) = true) ↔
      b = a ∧ ∃ w ∈ s.windowList c, (s.window w).slot = some j := fun j b => by
    simp only [decide_eq_true_eq]
    constructor
    · rintro ⟨w, hw, hb, hlist⟩
      exact ⟨hb, w, hlist, hw⟩
    · rintro ⟨hb, w, hlist, hw⟩
      exact ⟨w, hw, hb, hlist⟩
  refine ⟨?_, fun d => ?_, fun w => ?_, fun b => ?_, fun j => ?_, fun j hnamed hasked => ?_, fun j hkept => ?_⟩
  · rw [hleft.only]
    rfl
  · rw [← hcontext, ← hcontext]
    exact State.setContext_context u c d _
  · show u.window w = _
    have hset : ∀ b, hasAgent (u.window w).holders b = true ↔ hasAgent (s.window w).holders b = true ∧
        ¬ (b = a ∧ w ∈ s.windowList c) := fun b => by
      rw [hleft.holders, Bool.and_eq_true, Bool.not_eq_true', decide_eq_false_iff_not]
    by_cases hw : w ∈ s.windowList c
    · have hholders : (u.window w).holders = dropAgent (s.window w).holders a :=
        dropAgent_of_left fun b => (hset b).trans (by simp [hw])
      rw [if_pos hw, hleft.window, hholders]
    · have hholders : (u.window w).holders = (s.window w).holders :=
        agentSet_eq_of_iff fun b => (hset b).trans (by simp [hw])
      rw [if_neg hw, hleft.window, hholders]
  · show u.agent b = _
    rw [hleft.agent]
    by_cases hb : b = a
    · have hcount : s.holdingsLeft (fun b v => decide (b = a ∧ v ∈ s.windowList c)) b = s.holdingsIn c a := by
        refine List.countP_congr fun w _ => ?_
        simp [hb, and_comm]
      rw [if_pos hb, hcount, hb]
    · have hcount : s.holdingsLeft (fun b v => decide (b = a ∧ v ∈ s.windowList c)) b = 0 :=
        List.countP_eq_zero.mpr fun w _ => by simp [hb]
      rw [if_neg hb, hcount]
      rfl
  · rw [hslot, hleft.slot]
  · rw [hslot]
    refine ⟨dropAgent_of_left fun b => ?_, dropAgent_of_left fun b => ?_⟩
    · refine (hleft.pending j b).trans ?_
      rw [hgone]
      simp [hnamed]
    · refine (hleft.unsent j b).trans ?_
      rw [hgone]
      by_cases hb : b = a
      · simp [hb, hnamed, hasked]
      · simp [hb]
  · rw [hslot]
    have hnot : ∀ b, ¬ (hasAgent (s.slot j).pending b = true ∧
        b = a ∧ ∃ w ∈ s.windowList c, (s.window w).slot = some j) := by
      rintro b ⟨hasked, rfl, w, hlist, hw⟩
      rcases hkept with hkept | hkept
      · exact hkept w hlist hw
      · rw [hasked] at hkept
        cases hkept
    refine ⟨agentSet_eq_of_iff fun b => ?_, agentSet_eq_of_iff fun b => ?_⟩
    · refine (hleft.pending j b).trans ?_
      rw [hgone]
      exact ⟨fun h => h.1, fun h => ⟨h, fun hx => hnot b ⟨h, hx⟩⟩⟩
    · refine (hleft.unsent j b).trans ?_
      rw [hgone]
      exact ⟨fun h => h.1, fun h => ⟨h, hnot b⟩⟩

end Sys2Proof.Machine
end

section
/-! SUPPORT. The completions of one claim, and what settling leaves of them (O25). -/

namespace Sys2Proof.Machine

/-! ## The completion of one slot -/

section
variable {s : State} {k : SlotId}

theorem completeSlot_of_window {w : WindowId} (h : subjectWindow (s.slot k).subject = some w) :
    WindowCompletion k w s (s.completeSlot k).1 := by
  rw [completeSlot_fst]
  cases hz : (s.slot k).subject with
  | modify v =>
    rw [hz] at h
    cases h
    exact (applyModify_effect s w _).completion k
  | retire v =>
    rw [hz] at h
    cases h
    exact (applyRetire_effect s w).completion k
  | close c =>
    rw [hz] at h
    cases h
  | leave c a =>
    rw [hz] at h
    cases h

theorem completeSlot_of_close {c : ContextId} (h : (s.slot k).subject = .close c) :
    CloseCompletion k c s (s.completeSlot k).1 := by
  rw [completeSlot_fst, h]
  exact applyClose_completion s k c

theorem completeSlot_of_leave {c : ContextId} {a : AgentId} (h : (s.slot k).subject = .leave c a) :
    LeaveCompletion k c a s (s.completeSlot k).1 := by
  rw [completeSlot_fst, h]
  exact applyLeave_completion s k c a

/-- A completion reaches the directory's records alone: no queue, no completion, no register. -/
theorem completeSlot_only (s : State) (k : SlotId) : (s.completeSlot k).1 = { s with
    windows := (s.completeSlot k).1.windows, grants := (s.completeSlot k).1.grants,
    windowLists := (s.completeSlot k).1.windowLists, contexts := (s.completeSlot k).1.contexts,
    agents := (s.completeSlot k).1.agents, pool := (s.completeSlot k).1.pool,
    parkOrders := (s.completeSlot k).1.parkOrders, replayList := (s.completeSlot k).1.replayList,
    slots := (s.completeSlot k).1.slots } := by
  have hwindow : ∀ w, subjectWindow (s.slot k).subject = some w → _ := fun w h =>
    (completeSlot_of_window h).only
  cases hz : (s.slot k).subject with
  | modify w => rw [hwindow w (by rw [hz]; rfl)]
  | retire w => rw [hwindow w (by rw [hz]; rfl)]
  | close c => rw [(completeSlot_of_close hz).only]
  | leave c a => rw [(completeSlot_of_leave hz).only]

/-- The entries parked at the window of a change, in their order. -/
def State.parkOrderOf (s : State) (z : ChangeSubject) : List EntryId :=
  match subjectWindow z with
  | some w => s.parkOrder w
  | none => []

theorem parkOrderOf_of_window {z : ChangeSubject} {w : WindowId} (h : subjectWindow z = some w) :
    s.parkOrderOf z = s.parkOrder w := by
  rw [State.parkOrderOf, h]

theorem completeSlot_replayList (s : State) (k : SlotId) :
    (s.completeSlot k).1.replayList = s.replayList ++ s.parkOrderOf (s.slot k).subject := by
  have hwindow : ∀ w, subjectWindow (s.slot k).subject = some w →
      (s.completeSlot k).1.replayList = s.replayList ++ s.parkOrderOf (s.slot k).subject := fun w h => by
    rw [(completeSlot_of_window h).replayList, parkOrderOf_of_window h]
  cases hz : (s.slot k).subject with
  | modify w => exact hz ▸ hwindow w (by rw [hz]; rfl)
  | retire w => exact hz ▸ hwindow w (by rw [hz]; rfl)
  | close c =>
    rw [(completeSlot_of_close hz).only]
    exact (List.append_nil _).symm
  | leave c a =>
    rw [(completeSlot_of_leave hz).only]
    exact (List.append_nil _).symm

theorem completeSlot_parkOrder {v : WindowId} (h : subjectWindow (s.slot k).subject ≠ some v) :
    (s.completeSlot k).1.parkOrder v = s.parkOrder v := by
  have hwindow : ∀ w, subjectWindow (s.slot k).subject = some w →
      (s.completeSlot k).1.parkOrder v = s.parkOrder v := fun w hw => by
    rw [(completeSlot_of_window hw).parkOrder, if_neg]
    rintro rfl
    exact h hw
  cases hz : (s.slot k).subject with
  | modify w => exact hwindow w (by rw [hz]; rfl)
  | retire w => exact hwindow w (by rw [hz]; rfl)
  | close c =>
    rw [(completeSlot_of_close hz).only]
    rfl
  | leave c a =>
    rw [(completeSlot_of_leave hz).only]
    rfl

/-- Where every LEAVE has made its removals, a completion reaches its own slot alone. -/
theorem completeSlot_slot (h : LeavesDone s) (hk : s.Emptied k) (j : SlotId) : (s.completeSlot k).1.slot j
    = if j = k then { s.slot k with state := .free } else s.slot j := by
  have hshrinks := (changeEffect_shrinks (s.slot k).newValues fun c a => h k c a hk).trans
    (moveParkOf_shrinks _ (s.slot k).subject)
  rw [State.completeSlot, State.setSlot_slot, hshrinks.slots, hshrinks.slots]

end

/-! ## The removals before the completions (R95) -/

section
variable {s : State}

theorem leaveFirst_of_leave {k : SlotId} {c : ContextId} {a : AgentId} (hk : s.Emptied k)
    (hz : (s.slot k).subject = .leave c a) : s.leaveFirst k = s.leaveHoldings c a := by
  rw [State.leaveFirst, if_pos hk, hz]

theorem leaveFirst_of_other {k : SlotId} (h : ∀ c a, s.Emptied k → (s.slot k).subject ≠ .leave c a) :
    s.leaveFirst k = s := by
  unfold State.leaveFirst
  split
  · next hk =>
    split
    · next c a hz => exact absurd hz (h c a hk)
    · rfl
    · rfl
    · rfl
  · rfl

/-- An agent leaves a context's windows once: a second time nothing is left to remove. -/
theorem leaveHoldings_idem (s : State) (c : ContextId) (a : AgentId) :
    (s.leaveHoldings c a).leaveHoldings c a = s.leaveHoldings c a := by
  have hleft := leaveHoldings_leftBy s c a
  generalize s.leaveHoldings c a = u at hleft ⊢
  refine foldl_fixed _ u _ fun w hw => ?_
  rw [hleft.windowList] at hw
  have hholds : hasAgent (u.window w).holders a = false := by
    rw [hleft.holders]
    simp [hw]
  unfold State.leaveWindow
  dsimp only
  rw [dropHolder_of_no_holder hholds]
  split
  · next j hj =>
    rw [if_neg]
    rw [hleft.window] at hj
    rw [hleft.pending]
    exact fun h => h.2 ⟨w, hj, by simp [hw]⟩
  · rfl

/-- An emptied LEAVE keeps its own slot through its removals. -/
theorem leaveHoldings_emptied_slot {k : SlotId} (hk : s.Emptied k) (c : ContextId) (a : AgentId) :
    (s.leaveHoldings c a).slot k = s.slot k := by
  have hfold : ∀ (l : List WindowId) (t : State), (t.slot k).pending = 0 →
      (l.foldl (fun s w => s.leaveWindow a w) t).slot k = t.slot k := fun l => by
    induction l with
    | nil => exact fun _ _ => rfl
    | cons w l ih =>
      intro t ht
      have hstep : (t.leaveWindow a w).slot k = t.slot k := by
        rw [leaveWindow_slot, if_neg]
        rw [ht, hasAgent_zero]
        exact fun h => nomatch h.2
      rw [List.foldl_cons, ih _ (by rw [hstep]; exact ht), hstep]
  exact hfold _ s hk.2

/-- The completion of an emptied slot makes the removals that stand before it. -/
theorem completeSlot_leaveFirst {k : SlotId} (hk : s.Emptied k) :
    (s.leaveFirst k).completeSlot k = s.completeSlot k := by
  by_cases hleave : ∃ c a, (s.slot k).subject = .leave c a
  · obtain ⟨c, a, hz⟩ := hleave
    have hslot := leaveHoldings_emptied_slot hk c a
    have hidem := leaveHoldings_idem s c a
    have heffect : (s.leaveHoldings c a).changeEffect (s.slot k).subject (s.slot k).newValues
        = s.changeEffect (s.slot k).subject (s.slot k).newValues := by
      rw [hz]
      show (s.leaveHoldings c a).applyLeave c a = s.applyLeave c a
      rw [applyLeave_eq, hidem, applyLeave_eq]
    rw [leaveFirst_of_leave hk hz]
    refine Prod.ext ?_ ?_
    · rw [completeSlot_fst, completeSlot_fst, hslot, heffect]
    · rw [completeSlot_record, completeSlot_record, hslot, heffect, hz]
      rfl
  · rw [leaveFirst_of_other fun c a _ hz => hleave ⟨c, a, hz⟩]

end

/-! ## Settling, in its parts (R91, R102) -/

theorem settle_eq (s : State) : s.settle none false = s.completeEmptied.1.purgesEnded s.completeEmptied.2 := by
  unfold State.settle State.purgesEnded
  dsimp only
  rw [endPurges_none]
  generalize s.completeEmptied.1.nothingHeld.foldl State.purgeEnded s.completeEmptied.1 = u
  rw [if_neg (by decide), postAll_eq]
  simp [State.fencesEnded, State.clearFences, State.fencesDone, State.fenceRecord, commandCode]

/-- One emptied change whose completion empties no other completes alone. -/
theorem completeEmptied_of_one {s : State} {k : SlotId} (hk : s.Emptied k) (honly : ∀ j, j ≠ k → ¬ s.Emptied j)
    (hafter : ∀ j, ¬ (s.completeSlot k).1.Emptied j) :
    s.completeEmptied = ((s.completeSlot k).1, [(s.completeSlot k).2]) := by
  obtain ⟨before, after, hsplit⟩ : ∃ before after, allSlots = before ++ k :: after :=
    List.append_of_mem (List.mem_finRange k)
  have hnodup : (before ++ k :: after).Nodup := hsplit ▸ List.nodup_finRange 8
  have hbefore : ∀ j ∈ before, j ≠ k := fun j hj he =>
    (List.nodup_append.mp hnodup).2.2 j hj k List.mem_cons_self he
  have hlater : ∀ j ∈ after, j ≠ k := fun j hj he =>
    (List.nodup_cons.mp (List.nodup_append.mp hnodup).2.1).1 (he ▸ hj)
  have hslot : (s.leaveFirst k).slot k = s.slot k := by
    by_cases hleave : ∃ c a, (s.slot k).subject = .leave c a
    · obtain ⟨c, a, hz⟩ := hleave
      rw [leaveFirst_of_leave hk hz, leaveHoldings_emptied_slot hk]
    · rw [leaveFirst_of_other fun c a _ hz => hleave ⟨c, a, hz⟩]
  have hfirst : ∀ j, j ≠ k → ¬ (s.leaveFirst k).Emptied j := fun j hj => by
    by_cases hleave : ∃ c a, (s.slot k).subject = .leave c a
    · obtain ⟨c, a, hz⟩ := hleave
      have hsame : (s.completeSlot k).1.slot j = (s.leaveFirst k).slot j := by
        rw [leaveFirst_of_leave hk hz, completeSlot_fst, State.setSlot_slot, if_neg hj, hz]
        rfl
      rw [State.Emptied, ← hsame]
      exact hafter j
    · rw [leaveFirst_of_other fun c a _ hz => hleave ⟨c, a, hz⟩]
      exact honly j hj
  have hleaves : allSlots.foldl State.leaveFirst s = s.leaveFirst k := by
    rw [hsplit, List.foldl_append, List.foldl_cons,
      foldl_fixed _ s before fun j hj => if_neg (honly j (hbefore j hj)),
      foldl_fixed _ _ after fun j hj => if_neg (hfirst j (hlater j hj))]
  unfold State.completeEmptied
  rw [hleaves, hsplit, List.foldl_append, List.foldl_cons,
    foldl_fixed _ (s.leaveFirst k, []) before fun j hj => if_neg (hfirst j (hbefore j hj))]
  have hturn : completeIfEmptied (s.leaveFirst k, []) k = ((s.completeSlot k).1, [(s.completeSlot k).2]) := by
    have hemptied : (s.leaveFirst k).Emptied k := by
      rw [State.Emptied, hslot]
      exact hk
    rw [completeIfEmptied, if_pos hemptied]
    dsimp only
    rw [completeSlot_leaveFirst hk]
    rfl
  rw [hturn]
  exact foldl_fixed _ _ after fun j _ => if_neg (hafter j)

theorem settle_of_one_emptied {s : State} {k : SlotId} (hk : s.Emptied k) (honly : ∀ j, j ≠ k → ¬ s.Emptied j)
    (hafter : ∀ j, ¬ (s.completeSlot k).1.Emptied j) :
    s.settle none false = (s.completeSlot k).1.purgesEnded [(s.completeSlot k).2] := by
  rw [settle_eq, completeEmptied_of_one hk honly hafter]

/-! ## All the completions of one claim -/

/-- The slots of a list that are emptied complete one after the other. -/
theorem foldl_completeIfEmptied_eq (l : List SlotId) (hl : l.Nodup) (x : State × List Completion)
    (h : LeavesDone x.1) : l.foldl completeIfEmptied x
      = ((x.1.completedAll (l.filter fun k => decide (x.1.Emptied k))).1,
        x.2 ++ (x.1.completedAll (l.filter fun k => decide (x.1.Emptied k))).2) := by
  induction l generalizing x with
  | nil => simp
  | cons k l ih =>
    obtain ⟨hkl, hl⟩ := List.nodup_cons.mp hl
    by_cases hk : x.1.Emptied k
    · obtain ⟨hdone, hrest⟩ := completeSlot_emptied h hk
      have hturn : completeIfEmptied x k = ((x.1.completeSlot k).1, x.2 ++ [(x.1.completeSlot k).2]) := if_pos hk
      have hfilter : (l.filter fun j => decide ((x.1.completeSlot k).1.Emptied j))
          = l.filter fun j => decide (x.1.Emptied j) := List.filter_congr fun j hj => by
        have hjk : j ≠ k := fun he => hkl (he ▸ hj)
        exact decide_eq_decide.mpr ((hrest j).trans (and_iff_right hjk))
      have hcons : ((k :: l).filter fun j => decide (x.1.Emptied j))
          = k :: l.filter fun j => decide (x.1.Emptied j) := List.filter_cons_of_pos (decide_eq_true hk)
      rw [List.foldl_cons, hturn, ih hl _ hdone, hcons, hfilter]
      simp only [State.completedAll, List.append_assoc, List.singleton_append]
    · have hturn : completeIfEmptied x k = x := if_neg hk
      have hcons : ((k :: l).filter fun j => decide (x.1.Emptied j))
          = l.filter fun j => decide (x.1.Emptied j) := List.filter_cons_of_neg (by simpa using hk)
      rw [List.foldl_cons, hturn, ih hl x h, hcons]

section
variable {u : State}

/-- What the completions of the emptied slots of a list leave of the slots. -/
theorem completedAll_state {l : List SlotId} (hl : l.Nodup) (h : LeavesDone u) (hemptied : ∀ k ∈ l, u.Emptied k)
    (j : SlotId) : ((u.completedAll l).1.slot j).state = if j ∈ l then .free else (u.slot j).state := by
  induction l generalizing u with
  | nil => simp
  | cons k l ih =>
    obtain ⟨hkl, hl⟩ := List.nodup_cons.mp hl
    have hk := hemptied k List.mem_cons_self
    obtain ⟨hdone, hrest⟩ := completeSlot_emptied h hk
    have hlater : ∀ i ∈ l, (u.completeSlot k).1.Emptied i := fun i hi =>
      (hrest i).mpr ⟨fun he => hkl (he ▸ hi), hemptied i (List.mem_cons_of_mem _ hi)⟩
    refine (ih hl hdone hlater).trans ?_
    rw [completeSlot_slot h hk]
    by_cases hj : j = k
    · simp [hj]
    · simp [hj]

theorem completedAll_records {l : List SlotId} (hl : l.Nodup) (h : LeavesDone u)
    (hemptied : ∀ k ∈ l, u.Emptied k) : ((u.completedAll l).2.map fun c => (c.tag, c.status))
      = l.map fun k => ((u.slot k).tag, changeStatus (u.slot k).fenced) := by
  induction l generalizing u with
  | nil => rfl
  | cons k l ih =>
    obtain ⟨hkl, hl⟩ := List.nodup_cons.mp hl
    have hk := hemptied k List.mem_cons_self
    obtain ⟨hdone, hrest⟩ := completeSlot_emptied h hk
    have hne : ∀ i ∈ l, i ≠ k := fun i hi he => hkl (he ▸ hi)
    have hlater : ∀ i ∈ l, (u.completeSlot k).1.Emptied i := fun i hi =>
      (hrest i).mpr ⟨hne i hi, hemptied i (List.mem_cons_of_mem _ hi)⟩
    have htail : (l.map fun i =>
          (((u.completeSlot k).1.slot i).tag, changeStatus ((u.completeSlot k).1.slot i).fenced))
        = l.map fun i => ((u.slot i).tag, changeStatus (u.slot i).fenced) := List.map_congr_left fun i hi => by
      rw [completeSlot_slot h hk, if_neg (hne i hi)]
    exact congrArg₂ List.cons rfl ((ih hl hdone hlater).trans htail)

/-- Different slots of the list change different windows. -/
def WindowsDiffer (u : State) (l : List SlotId) : Prop :=
  ∀ i ∈ l, ∀ j ∈ l, ∀ w, subjectWindow (u.slot i).subject = some w → subjectWindow (u.slot j).subject = some w →
    i = j

theorem completedAll_replayList {l : List SlotId} (hl : l.Nodup) (h : LeavesDone u)
    (hemptied : ∀ k ∈ l, u.Emptied k) (hdiffer : WindowsDiffer u l) :
    (u.completedAll l).1.replayList = u.replayList ++ l.flatMap fun k => u.parkOrderOf (u.slot k).subject := by
  induction l generalizing u with
  | nil => simp
  | cons k l ih =>
    obtain ⟨hkl, hl⟩ := List.nodup_cons.mp hl
    have hk := hemptied k List.mem_cons_self
    obtain ⟨hdone, hrest⟩ := completeSlot_emptied h hk
    have hne : ∀ i ∈ l, i ≠ k := fun i hi he => hkl (he ▸ hi)
    have hlater : ∀ i ∈ l, (u.completeSlot k).1.Emptied i := fun i hi =>
      (hrest i).mpr ⟨hne i hi, hemptied i (List.mem_cons_of_mem _ hi)⟩
    have hslot : ∀ i ∈ l, (u.completeSlot k).1.slot i = u.slot i := fun i hi => by
      rw [completeSlot_slot h hk, if_neg (hne i hi)]
    have hdiffer' : WindowsDiffer (u.completeSlot k).1 l := fun i hi j hj w hiw hjw => by
      rw [hslot i hi] at hiw
      rw [hslot j hj] at hjw
      exact hdiffer i (List.mem_cons_of_mem _ hi) j (List.mem_cons_of_mem _ hj) w hiw hjw
    have hpark : ∀ i ∈ l, (u.completeSlot k).1.parkOrderOf ((u.completeSlot k).1.slot i).subject
        = u.parkOrderOf (u.slot i).subject := fun i hi => by
      rw [hslot i hi]
      cases hw : subjectWindow (u.slot i).subject with
      | none => rw [State.parkOrderOf, State.parkOrderOf, hw]
      | some w =>
        rw [parkOrderOf_of_window hw, parkOrderOf_of_window hw, completeSlot_parkOrder]
        exact fun hkw => hne i hi (hdiffer i (List.mem_cons_of_mem _ hi) k List.mem_cons_self w hw hkw)
    have hflat : (l.flatMap fun i => (u.completeSlot k).1.parkOrderOf ((u.completeSlot k).1.slot i).subject)
        = l.flatMap fun i => u.parkOrderOf (u.slot i).subject := List.flatMap_congr hpark
    refine (ih hl hdone hlater hdiffer').trans ?_
    rw [completeSlot_replayList, hflat, List.append_assoc, List.flatMap_cons]

end

/-! ## The removals of all the LEAVEs of a claim (R95) -/

section
variable {s t : State} {left : AgentId → WindowId → Bool}

/-- Where the window slots are named, the removals reach the slot of no LEAVE. -/
theorem LeftBy.leave_slot (h : LeftBy left s t) (hs : ChangesNamed s) {k : SlotId} {c : ContextId} {a : AgentId}
    (hz : (s.slot k).subject = .leave c a) : t.slot k = s.slot k := by
  have hnone : ∀ b, ¬ ∃ w, (s.window w).slot = some k ∧ left b w = true := by
    rintro b ⟨w, hw, -⟩
    obtain ⟨-, hnamed⟩ := (hs w).2 k hw
    rw [hz] at hnamed
    cases hnamed
  have hpending : (t.slot k).pending = (s.slot k).pending := agentSet_eq_of_iff fun b => by
    rw [h.pending]
    exact and_iff_left (hnone b)
  have hunsent : (t.slot k).unsent = (s.slot k).unsent := agentSet_eq_of_iff fun b => by
    rw [h.unsent]
    exact and_iff_left fun hx => hnone b hx.2
  rw [h.slot, hpending, hunsent]

theorem LeftBy.subject (h : LeftBy left s t) (k : SlotId) : (t.slot k).subject = (s.slot k).subject := by
  rw [h.slot]

/-- One slot's turn in the removals. -/
theorem LeftBy.leaveFirst (h : LeftBy left s t) (hs : ChangesNamed s) (k : SlotId) :
    ∃ left', LeftBy left' s (t.leaveFirst k) ∧ ∀ a w, left' a w = true ↔ left a w = true ∨
      ∃ c, s.Emptied k ∧ (s.slot k).subject = .leave c a ∧ w ∈ s.windowList c := by
  by_cases hleave : ∃ c a, s.Emptied k ∧ (s.slot k).subject = .leave c a
  · obtain ⟨c, b, hk, hz⟩ := hleave
    have hslot := h.leave_slot hs hz
    obtain ⟨left', hleft, hiff⟩ := h.leaveHoldings c b
    refine ⟨left', ?_, fun a w => ?_⟩
    · rw [leaveFirst_of_leave (by rw [State.Emptied, hslot]; exact hk) (by rw [hslot]; exact hz)]
      exact hleft
    · rw [hiff, hz]
      refine or_congr Iff.rfl ⟨?_, ?_⟩
      · rintro ⟨rfl, hw⟩
        exact ⟨c, hk, rfl, hw⟩
      · rintro ⟨d, -, hd, hw⟩
        cases hd
        exact ⟨rfl, hw⟩
  · refine ⟨left, ?_, fun a w => ?_⟩
    · rw [leaveFirst_of_other]
      · exact h
      · intro c a hk hz
        rw [h.subject] at hz
        rw [State.Emptied, h.leave_slot hs hz] at hk
        exact hleave ⟨c, a, hk, hz⟩
    · refine (or_iff_left ?_).symm
      rintro ⟨c, hk, hz, -⟩
      exact hleave ⟨c, a, hk, hz⟩

theorem LeftBy.foldl_leaveFirst (h : LeftBy left s t) (hs : ChangesNamed s) (l : List SlotId) :
    ∃ left', LeftBy left' s (l.foldl State.leaveFirst t) ∧ ∀ a w, left' a w = true ↔ left a w = true ∨
      ∃ k ∈ l, ∃ c, s.Emptied k ∧ (s.slot k).subject = .leave c a ∧ w ∈ s.windowList c := by
  induction l generalizing left t with
  | nil => exact ⟨left, h, by simp⟩
  | cons k l ih =>
    obtain ⟨left₁, hfirst, hiff₁⟩ := h.leaveFirst hs k
    obtain ⟨left₂, hrest, hiff₂⟩ := ih hfirst
    refine ⟨left₂, hrest, fun a w => ?_⟩
    rw [hiff₂, hiff₁, or_assoc]
    simp only [List.mem_cons, exists_eq_or_imp]

/-- The removals of the LEAVEs that complete in a claim. -/
theorem leavesMade (hs : ChangesNamed s) : ∃ left, LeftBy left s (allSlots.foldl State.leaveFirst s) ∧
    ∀ a w, left a w = true ↔ s.LeavesWindow a w := by
  obtain ⟨left, hleft, hiff⟩ := (LeftBy.refl s).foldl_leaveFirst hs allSlots
  refine ⟨left, hleft, fun a w => ?_⟩
  rw [hiff]
  simp [allSlots, State.LeavesWindow]

theorem leavesDone_of_named (hs : ChangesNamed s) : LeavesDone (allSlots.foldl State.leaveFirst s) :=
  fun _ _ _ hk hz => foldl_leaveFirst_done (slotsNamed_of_changesNamed hs) hk hz

end

end Sys2Proof.Machine
end

section
/-! SUPPORT. The completions of a claim, by kind and together (O25). -/

namespace Sys2Proof.Machine

section
variable {s : State} {k : SlotId}

theorem completeSlot_modify {w : WindowId} (h : (s.slot k).subject = .modify w) :
    (∀ v, (s.completeSlot k).1.window v = if v = w then { s.window w with
        state := .live, length := (s.slot k).newValues.length, version := (s.window w).version + 1,
        slot := none, poisoned := false } else s.window v) ∧
      (s.completeSlot k).1.word w = ⟨(s.slot k).newValues.grant, []⟩ ∧
      (s.completeSlot k).1.contexts = s.contexts ∧ (s.completeSlot k).1.windowLists = s.windowLists ∧
      (s.completeSlot k).2.result = .modified w (s.slot k).serial (s.slot k).fenced ((s.window w).version + 1)
        (s.window w).poisoned := by
  have hwindow := applyModify_window s w
  refine ⟨fun v => ?_, ?_, ?_, ?_, ?_⟩
  · rw [completeSlot_fst, h, moveParkOf_modify, movePark_only]
    exact hwindow v _
  · rw [completeSlot_fst, h, moveParkOf_modify, movePark_only]
    exact (applyModify_word s w w _).trans (if_pos rfl)
  · rw [completeSlot_fst, h, moveParkOf_modify, movePark_only]
    rfl
  · rw [completeSlot_fst, h, moveParkOf_modify, movePark_only]
    rfl
  · rw [completeSlot_record, h]
    show Result.modified w _ _ ((s.applyModify w _).window w).version _ = _
    rw [hwindow, if_pos rfl]

theorem completeSlot_retire {w : WindowId} (h : (s.slot k).subject = .retire w) :
    (s.completeSlot k).1.window w = { s.window w with
        state := .free, context := 0, localBase := 0, length := 0, slot := none, poisoned := false } ∧
      (s.completeSlot k).1.word w = ⟨GrantPart.zero, []⟩ ∧
      (∀ c, (s.completeSlot k).1.windowList c =
        if c = (s.window w).context then (s.windowList c).erase w else s.windowList c) ∧
      (∀ c, (s.completeSlot k).1.context c = if c = (s.window w).context then
        { s.context c with windowCount := (s.context c).windowCount - 1 } else s.context c) ∧
      (s.completeSlot k).2.result
        = .retired w (s.slot k).serial (s.slot k).fenced (s.window w).version := by
  refine ⟨?_, ?_, fun c => ?_, fun c => ?_, ?_⟩
  · rw [completeSlot_fst, h, moveParkOf_retire, movePark_only]
    exact (applyRetire_window s w w).trans (if_pos rfl)
  · rw [completeSlot_fst, h, moveParkOf_retire, movePark_only]
    exact (applyRetire_word s w w).trans (if_pos rfl)
  · rw [completeSlot_fst, h, moveParkOf_retire, movePark_only]
    exact applyRetire_windowList s w c
  · rw [completeSlot_fst, h, moveParkOf_retire, movePark_only]
    exact applyRetire_context s w c
  · rw [completeSlot_record, h]
    show Result.retired w _ _ ((s.applyRetire w).window w).version = _
    rw [applyRetire_window, if_pos rfl]

theorem completeSlot_kind {z : ChangeSubject} (h : (s.slot k).subject = z) :
    (s.completeSlot k).2.kind = commandCode (changeCommand z) := by
  rw [completeSlot_record, h]

theorem completeSlot_close_result {c : ContextId} (h : (s.slot k).subject = .close c) :
    (s.completeSlot k).2.result = .close c (s.slot k).serial (s.slot k).fenced := by
  rw [completeSlot_record, h]
  rfl

theorem completeSlot_leave_result {c : ContextId} {a : AgentId} (h : (s.slot k).subject = .leave c a) :
    (s.completeSlot k).2.result = .leave c a (s.slot k).serial (s.slot k).fenced := by
  rw [completeSlot_record, h]
  rfl

theorem completeSlot_state_free (s : State) (k : SlotId) : ((s.completeSlot k).1.slot k).state = .free := by
  rw [completeSlot_fst, State.setSlot_slot, if_pos rfl]

/-- Every change that completes in a claim, from the removals of its LEAVEs on. -/
theorem completeEmptied_eq (hs : ChangesNamed s) : s.completeEmptied
    = (allSlots.foldl State.leaveFirst s).completedAll
        (allSlots.filter fun k => decide ((allSlots.foldl State.leaveFirst s).Emptied k)) := by
  have hdone := leavesDone_of_named hs
  unfold State.completeEmptied
  generalize allSlots.foldl State.leaveFirst s = u at hdone
  rw [foldl_completeIfEmptied_eq allSlots (List.nodup_finRange 8) (u, []) hdone, List.nil_append]

end

/-- Settles O25: a completion is its kind's effects, its park order moved, and its slot FREE; a claim's completions
follow the removals of its LEAVEs, one after the other. -/
theorem completionByKind : Obligations.CompletionByKind := by
  refine ⟨fun s k => ?_, fun s k hk honly hafter => settle_of_one_emptied hk honly hafter, fun s hs => ?_⟩
  · intro r t record slotsKept
    refine ⟨completeSlot_only s k, completeSlot_state_free s k, rfl, rfl, fun w hw => ?_, fun w hw => ?_,
      fun w hw => ?_, fun c hc => ?_, fun c a hc => ?_⟩
    · have hsubject : subjectWindow (s.slot k).subject = some w := by
        rcases hw with hw | hw
        · rw [hw]
          rfl
        · rw [hw]
          rfl
      have h : WindowCompletion k w s t := completeSlot_of_window hsubject
      refine ⟨h.slot, ?_, fun v hv => ⟨h.window v hv, h.word v hv, ?_⟩, ?_, h.replayList, h.entry⟩
      · rw [h.only]
      · rw [h.parkOrder, if_neg hv]
      · rw [h.parkOrder, if_pos rfl]
    · obtain ⟨hwindow, hword, hcontexts, hlists, hresult⟩ := completeSlot_modify (k := k) hw
      exact ⟨(hwindow w).trans (if_pos rfl), hword, hcontexts, hlists, completeSlot_kind hw, hresult⟩
    · obtain ⟨hwindow, hword, hlists, hcontexts, hresult⟩ := completeSlot_retire (k := k) hw
      exact ⟨hwindow, hword, hlists, hcontexts, completeSlot_kind hw, hresult⟩
    · have h : CloseCompletion k c s t := completeSlot_of_close hc
      exact ⟨h.slot, h.context, h.windowList, fun w hw => ⟨(h.word w).trans (if_pos hw),
        (h.window w).trans (if_pos hw)⟩, fun w hw => ⟨(h.window w).trans (if_neg hw),
        (h.word w).trans (if_neg hw)⟩, h.agent, h.only, completeSlot_kind hc, completeSlot_close_result hc⟩
    · have h : LeaveCompletion k c a s t := completeSlot_of_leave hc
      exact ⟨h.context, h.window, h.agent, fun j => ⟨h.slot j, h.dropped j, h.kept j⟩, h.only,
        completeSlot_kind hc, completeSlot_leave_result hc⟩
  · obtain ⟨left, hleft, hiff⟩ := leavesMade hs
    have hdone := leavesDone_of_named hs
    have hsettle : s.settle none false = _ := settle_eq s
    rw [completeEmptied_eq hs] at hsettle
    generalize allSlots.foldl State.leaveFirst s = u at hleft hdone hsettle
    have hslot := hleft.slot
    refine ⟨u, hleft.only, fun w => ⟨hleft.window w, fun a => ?_⟩, fun a => ?_,
      fun j => ⟨hslot j, fun a => ?_⟩, ?_⟩
    · rw [hleft.holders, Bool.and_eq_true, Bool.not_eq_true', ← Bool.not_eq_true, hiff]
    · have hcount : s.holdingsLeft left a = (List.finRange 4096).countP fun w =>
          decide (hasAgent (s.window w).holders a = true ∧ s.LeavesWindow a w) :=
        List.countP_congr fun w _ => by rw [Bool.and_eq_true, hiff, decide_eq_true_eq]
      rw [hleft.agent, hcount]
    · intro leaves
      have hpending := hleft.pending j a
      have hunsent := hleft.unsent j a
      simp only [hiff] at hpending hunsent
      exact ⟨hpending.trans ⟨fun h => ⟨h.1, fun hx => h.2 hx.2⟩, fun h => ⟨h.1, fun hx => h.2 ⟨h.1, hx⟩⟩⟩, hunsent⟩
    · intro emptied done
      have hnodup : emptied.Nodup := List.Nodup.filter _ (List.nodup_finRange 8)
      have hemptied : ∀ k ∈ emptied, u.Emptied k := fun k hk => of_decide_eq_true (List.mem_filter.mp hk).2
      refine ⟨hsettle, ?_, fun k => ?_, fun hnamed => ?_⟩
      · refine (completedAll_records hnodup hdone hemptied).trans (List.map_congr_left fun k _ => ?_)
        rw [hslot]
        rfl
      · rw [completedAll_state hnodup hdone hemptied, hslot]
        by_cases hk : k ∈ emptied
        · simp [hk]
        · simp [hk]
      · have hsubject := hleft.subject
        have hdiffer : WindowsDiffer u emptied := fun i hi j hj w hiw hjw => by
          rw [hsubject] at hiw hjw
          exact Option.some.inj ((hnamed i hi w hiw).symm.trans (hnamed j hj w hjw))
        have hpark : ∀ z, u.parkOrderOf z = s.parkOrderOf z := fun z => by
          rw [hleft.only]
          rfl
        refine (completedAll_replayList hnodup hdone hemptied hdiffer).trans ?_
        simp only [hsubject, hpark]
        rw [hleft.only]
        rfl

end Sys2Proof.Machine
end

section
/-! SUPPORT. The last answer to a change (O24). -/

namespace Sys2Proof.Machine

theorem dropAgent_oneAgent (a : AgentId) : dropAgent (oneAgent a) a = 0 := agentSet_ext fun b => by
  rw [hasAgent_dropAgent, hasAgent_oneAgent, hasAgent_zero]
  simp

/-- Where no purge and no fence wait ends, a claim's records are posted and nothing more. -/
theorem purgesEnded_of_none {u : State} (hheld : ∀ a, (u.agent a).state = .purging → (u.agent a).held ≠ 0)
    (hfence : ∀ f ∈ u.fenceWait, (u.agent f.agent).state ≠ .fenced) (records : List Completion) :
    u.purgesEnded records = { u with
      completions := u.completions ++ records, reservations := u.reservations - records.length } := by
  have hnone : u.nothingHeld = [] := List.filter_eq_nil_iff.mpr fun a _ => by
    simpa using hheld a
  have hdone : (u.fenceWait.filter fun f => decide ((u.agent f.agent).state = .fenced)) = [] :=
    List.filter_eq_nil_iff.mpr fun f hf => by simpa using hfence f hf
  have hkept : (u.fenceWait.filter fun f => decide ((u.agent f.agent).state ≠ .fenced)) = u.fenceWait :=
    List.filter_eq_self.mpr fun f hf => by simpa using hfence f hf
  rw [State.purgesEnded, hnone, List.foldl_nil, State.fencesEnded]
  simp only [hdone, hkept]
  simp

section
variable {s : State} {a : AgentId} {k : SlotId}

/-- The last answer empties its slot, and no other in a settled directory. -/
theorem dropAnswer_emptied (hs : Settled s) (hactive : (s.slot k).state = .active)
    (hpending : (s.slot k).pending = oneAgent a) :
    (s.dropAnswer k a).Emptied k ∧ ∀ j, j ≠ k → ¬ (s.dropAnswer k a).Emptied j := by
  have hslot : ∀ j, (s.dropAnswer k a).slot j = if j = k then { s.slot k with
      pending := dropAgent (s.slot k).pending a, unsent := dropAgent (s.slot k).unsent a } else s.slot j :=
    fun j => by
      cases hw : subjectWindow (s.slot k).subject with
      | none => rw [dropAnswer_of_no_window hw, dropPending_slot]
      | some w => rw [dropAnswer_of_window hw, dropPending_slot, dropHolder_slot, dropHolder_slot]
  refine ⟨?_, fun j hj => ?_⟩
  · rw [State.Emptied, hslot, if_pos rfl]
    refine ⟨hactive, ?_⟩
    rw [hpending]
    exact dropAgent_oneAgent a
  · rw [State.Emptied, hslot, if_neg hj]
    exact hs.1 j

/-- The last answer, by what it removes. -/
theorem dropAnswer_last (hpending : (s.slot k).pending = oneAgent a) :
    s.dropPending k a = s.setSlot k { s.slot k with
      pending := 0, unsent := dropAgent (s.slot k).unsent a } := by
  rw [State.dropPending, hpending, dropAgent_oneAgent]

/-- The claim of the last answer: the answer removed, the change completed, a waiting head examined again. -/
theorem exec_last_ack {p : PortId} {serial : Half} {rest : List InMsg} (hserving : Serving s) (hs : Settled s)
    (hup : (s.port p).state = .up) (hin : (s.port p).inbound = .recallAck a serial :: rest)
    (hmatch : s.matchAck p a serial = some k) (hpending : (s.slot k).pending = oneAgent a) {u : State}
    (hu : (s.tookFrom p rest).dropAnswer k a = u) :
    exec (.recallAck p) s = .next ((u.settle none false).reconsider none) ∧
      ((∀ j, ¬ (u.completeSlot k).1.Emptied j) → u.settle none false
        = (u.completeSlot k).1.purgesEnded [(u.completeSlot k).2]) := by
  obtain ⟨-, -, hactive, -⟩ := matched_of_matchAck hmatch
  obtain ⟨hemptied, hothers⟩ := dropAnswer_emptied (s := s.tookFrom p rest) hs hactive hpending
  rw [hu] at hemptied hothers
  refine ⟨?_, settle_of_one_emptied hemptied hothers⟩
  rw [exec_recallAck_of_head hserving hup hin, takeAck_of_matched (s := s.tookFrom p rest) hmatch, finish_none,
    hu]

end

/-- A MODIFY that completes alone, its last holder `a` gone: the state its claim settles in. -/
structure ModifyEnded (p : PortId) (rest : List InMsg) (k : SlotId) (w : WindowId) (a : AgentId) (s u : State) :
    Prop where
  only : u = { s.tookFrom p rest with windows := u.windows, agents := u.agents, slots := u.slots }
  window : ∀ v, u.window v = if v = w then { s.window w with holders := 0 } else s.window v
  agent : ∀ b, u.agent b = if b = a then { s.agent a with held := (s.agent a).held - 1 } else s.agent b
  slot : ∀ j, u.slot j = if j = k then { s.slot k with
    pending := 0, unsent := dropAgent (s.slot k).unsent a } else s.slot j

theorem modifyEnded {s : State} {p : PortId} {rest : List InMsg} {k : SlotId} {w : WindowId} {a : AgentId}
    (hsubject : (s.slot k).subject = .modify w) (hpending : (s.slot k).pending = oneAgent a)
    (hholders : (s.window w).holders = oneAgent a) :
    ModifyEnded p rest k w a s ((s.tookFrom p rest).dropAnswer k a) := by
  have hwindow : subjectWindow ((s.tookFrom p rest).slot k).subject = some w := by
    show subjectWindow (s.slot k).subject = some w
    rw [hsubject]
    rfl
  have hholds : hasAgent ((s.tookFrom p rest).window w).holders a = true := by
    show hasAgent (s.window w).holders a = true
    rw [hholders, hasAgent_oneAgent]
    simp
  rw [dropAnswer_of_window hwindow]
  refine ⟨?_, fun v => ?_, fun b => ?_, fun j => ?_⟩
  · rw [dropHolder_of_holder hholds]
    rfl
  · rw [dropHolder_of_holder hholds]
    refine (State.setWindow_window (s.tookFrom p rest) w v
      { s.window w with holders := dropAgent (s.window w).holders a }).trans ?_
    rw [hholders, dropAgent_oneAgent]
    rfl
  · exact dropHolder_agent_of_holder hholds b
  · rw [dropPending_slot, dropHolder_slot, dropHolder_slot]
    show (if j = k then { s.slot k with
      pending := dropAgent (s.slot k).pending a, unsent := dropAgent (s.slot k).unsent a } else s.slot j) = _
    rw [hpending, dropAgent_oneAgent]

namespace ModifyEnded

variable {s u : State} {p : PortId} {rest : List InMsg} {k : SlotId} {w : WindowId} {a : AgentId}

theorem own_slot (hu : ModifyEnded p rest k w a s u) :
    u.slot k = { s.slot k with pending := 0, unsent := dropAgent (s.slot k).unsent a } := by
  rw [hu.slot, if_pos rfl]

theorem own_window (hu : ModifyEnded p rest k w a s u) : u.window w = { s.window w with holders := 0 } := by
  rw [hu.window, if_pos rfl]

theorem subject (hu : ModifyEnded p rest k w a s u) (hsubject : (s.slot k).subject = .modify w) :
    (u.slot k).subject = .modify w := by
  rw [hu.own_slot]
  exact hsubject

theorem completion (hu : ModifyEnded p rest k w a s u) (hsubject : (s.slot k).subject = .modify w) :
    WindowCompletion k w u (u.completeSlot k).1 :=
  completeSlot_of_window (by rw [hu.subject hsubject]; rfl)

theorem record (hu : ModifyEnded p rest k w a s u) (hsubject : (s.slot k).subject = .modify w) :
    (u.completeSlot k).2 = ⟨0x11, changeStatus (s.slot k).fenced, (s.slot k).tag,
      .modified w (s.slot k).serial (s.slot k).fenced ((s.window w).version + 1) (s.window w).poisoned⟩ := by
  obtain ⟨-, -, -, -, hresult⟩ := completeSlot_modify (hu.subject hsubject)
  rw [completeSlot_record] at hresult ⊢
  dsimp only at hresult
  rw [hresult, hu.subject hsubject, hu.own_slot, hu.own_window]
  rfl

theorem completed_agent (hu : ModifyEnded p rest k w a s u) (hsubject : (s.slot k).subject = .modify w)
    (b : AgentId) : (u.completeSlot k).1.agent b
      = if b = a then { s.agent a with held := (s.agent a).held - 1 } else s.agent b := by
  rw [← hu.agent, (hu.completion hsubject).only]
  rfl

/-- The completion reaches the records of the window, the entries parked there, its slot, and the agent. -/
theorem completed_only (hu : ModifyEnded p rest k w a s u) (hsubject : (s.slot k).subject = .modify w) :
    (u.completeSlot k).1 = { s.tookFrom p rest with
      windows := (u.completeSlot k).1.windows, grants := (u.completeSlot k).1.grants,
      agents := (u.completeSlot k).1.agents, pool := (u.completeSlot k).1.pool,
      parkOrders := (u.completeSlot k).1.parkOrders, replayList := (u.completeSlot k).1.replayList,
      slots := (u.completeSlot k).1.slots } := by
  obtain ⟨-, -, hcontexts, hlists, -⟩ := completeSlot_modify (hu.subject hsubject)
  have hc := (hu.completion hsubject).only
  rw [hcontexts, hlists] at hc
  rw [hc, hu.only]

theorem completed_not_emptied (hu : ModifyEnded p rest k w a s u) (hsubject : (s.slot k).subject = .modify w)
    (hs : Settled s) (j : SlotId) : ¬ (u.completeSlot k).1.Emptied j := by
  rw [State.Emptied, (hu.completion hsubject).slot]
  by_cases hj : j = k
  · rw [if_pos hj]
    exact fun h => nomatch h.1
  · rw [if_neg hj, hu.slot, if_neg hj]
    exact hs.1 j

/-- The one completion ends no purge and no fence wait. -/
theorem purgesEnded (hu : ModifyEnded p rest k w a s u) (hsubject : (s.slot k).subject = .modify w)
    (hs : Settled s) (hactive : (s.agent a).state = .active) :
    (u.completeSlot k).1.purgesEnded [(u.completeSlot k).2] = { (u.completeSlot k).1 with
      completions := (u.completeSlot k).1.completions ++ [(u.completeSlot k).2]
      reservations := (u.completeSlot k).1.reservations - 1 } := by
  obtain ⟨-, hheld, hfence, -⟩ := hs
  have hagent := hu.completed_agent hsubject
  have hstate : ∀ b, ((u.completeSlot k).1.agent b).state = (s.agent b).state := fun b => by
    rw [hagent]
    split
    · next hb => rw [hb]
    · rfl
  refine purgesEnded_of_none (fun b hb => ?_) (fun f hf => ?_) _
  · rw [hstate] at hb
    rw [hagent, if_neg]
    · exact hheld b hb
    · rintro rfl
      rw [hactive] at hb
      cases hb
  · rw [hstate]
    rw [hu.completed_only hsubject] at hf
    exact hfence f hf

end ModifyEnded

/-- Settles O24: the last answer empties its change alone, so the claim settles with that one completion. -/
theorem lastAckCompletesTheChange : Obligations.LastAckCompletesTheChange := by
  refine ⟨fun s p a serial rest k w hserving hs hup hin hmatch hsubject hpending hholders => ?_,
    fun s p a serial rest k hserving hs hup hin hmatch hpending => ?_⟩
  · have hu : ModifyEnded p rest k w a s ((s.tookFrom p rest).dropAnswer k a) :=
      modifyEnded hsubject hpending hholders
    obtain ⟨hexec, hsettle⟩ := exec_last_ack hserving hs hup hin hmatch hpending rfl
    generalize (s.tookFrom p rest).dropAnswer k a = u at hu hexec hsettle
    obtain ⟨hactive, -⟩ := matched_of_matchAck hmatch
    obtain ⟨hwindow, hword, -⟩ := completeSlot_modify (hu.subject hsubject)
    have hc := hu.completion hsubject
    have hagent := hu.completed_agent hsubject
    have honly := hu.completed_only hsubject
    rw [hsettle (hu.completed_not_emptied hsubject hs), hu.purgesEnded hsubject hs hactive,
      hu.record hsubject] at hexec
    generalize (u.completeSlot k).1 = x at hc hwindow hword hagent honly hexec
    refine ⟨_, hexec, fun hwait => reconsider_of_none_waiting ?_ none, ?_, ?_, fun v hv => ⟨?_, ?_, ?_⟩, ?_,
      fun b hb => ?_, ?_, fun j hj => ?_, ?_, ?_, fun e => ?_, ?_, ?_⟩
    · rw [honly]
      exact hwait
    · refine (hwindow w).trans ?_
      rw [if_pos rfl, hu.own_window, hu.own_slot]
    · refine hword.trans ?_
      rw [hu.own_slot]
    · refine (hc.window v hv).trans ?_
      rw [hu.window, if_neg hv]
    · refine (hc.word v hv).trans ?_
      rw [hu.only]
      rfl
    · refine (hc.parkOrder v).trans ?_
      rw [if_neg hv, hu.only]
      rfl
    · exact (hagent a).trans (if_pos rfl)
    · exact (hagent b).trans (if_neg hb)
    · refine (hc.slot k).trans ?_
      rw [if_pos rfl, hu.own_slot]
    · refine (hc.slot j).trans ?_
      rw [if_neg hj, hu.slot, if_neg hj]
    · exact (hc.parkOrder w).trans (if_pos rfl)
    · refine hc.replayList.trans ?_
      rw [hu.only]
      rfl
    · refine (hc.entry e).trans ?_
      rw [hu.only]
      rfl
    · rw [honly]
      rfl
    · rw [honly]
      rfl
  · have hclaim : ∀ u, (s.tookFrom p rest).dropAnswer k a = u →
        exec (.recallAck p) s = .next ((u.settle none false).reconsider none) ∧
        ((∀ j, ¬ (u.completeSlot k).1.Emptied j) → exec (.recallAck p) s =
          .next (((u.completeSlot k).1.purgesEnded [(u.completeSlot k).2]).reconsider none)) := fun u hu => by
      obtain ⟨hexec, hsettle⟩ := exec_last_ack hserving hs hup hin hmatch hpending hu
      exact ⟨hexec, fun hnone => by rw [hexec, hsettle hnone]⟩
    have hremoved := dropAnswer_last (s := s.tookFrom p rest) hpending
    refine ⟨fun hnone => hclaim _ ?_, fun w hw => ⟨fun hholds => hclaim _ ?_, fun hno => hclaim _ ?_⟩⟩
    · rw [dropAnswer_of_no_window (s := s.tookFrom p rest) hnone, hremoved]
      rfl
    · rw [dropAnswer_of_window (s := s.tookFrom p rest) hw, ← dropPending_dropHolder, hremoved]
      exact dropHolder_of_holder hholds
    · rw [dropAnswer_of_window (s := s.tookFrom p rest) hw,
        dropHolder_of_no_holder (s := s.tookFrom p rest) hno, hremoved]
      rfl

end Sys2Proof.Machine
end

section
/-! SUPPORT. The fence of an agent, and a run of fences (R38, R101). -/

namespace Sys2Proof.Machine

/-! ## The FENCE sent (R38) -/

section
variable (s : State) (a : AgentId)

/-- A FENCE is placed, or owed where the UP port is full, or left to the next UP. -/
theorem sendFence_course :
    (∃ q, (s.agent a).port = some q ∧ s.HasRoom q ∧ s.sendFence a = s.place q (.fence a)) ∨
    (∃ q, (s.agent a).port = some q ∧ (s.port q).state = .up ∧ 32 ≤ (s.port q).outbound.length ∧
      s.sendFence a = s.setAgent a { s.agent a with fenceOwed := true }) ∨
    (∀ q, (s.agent a).port = some q → (s.port q).state ≠ .up) ∧ s.sendFence a = s := by
  cases hport : (s.agent a).port with
  | none => exact .inr (.inr ⟨nofun, by simp only [State.sendFence, hport]⟩)
  | some q =>
    by_cases hroom : s.HasRoom q
    · exact .inl ⟨q, rfl, hroom, by simp only [State.sendFence, hport, if_pos hroom]⟩
    · by_cases hup : (s.port q).state = .up
      · refine .inr (.inl ⟨q, rfl, hup, Nat.le_of_not_lt fun hlt => hroom ⟨hup, hlt⟩, ?_⟩)
        simp only [State.sendFence, hport, if_neg hroom, if_pos hup]
      · refine .inr (.inr ⟨fun p hp => ?_, by simp only [State.sendFence, hport, if_neg hroom, if_neg hup]⟩)
        cases hp
        exact hup

theorem sendFence_port (p : PortId) : (s.sendFence a).port p
    = if (s.agent a).port = some p then (s.port p).offered (.fence a) else s.port p := by
  rcases sendFence_course s a with ⟨q, hq, hroom, h⟩ | ⟨q, hq, hup, hfull, h⟩ | ⟨hdown, h⟩
  · rw [h, place_port, hq]
    by_cases hp : p = q
    · subst hp
      rw [if_pos ⟨rfl, hroom⟩, if_pos rfl, offered_of_room hroom]
    · rw [if_neg fun hx => hp hx.1, if_neg fun hx => hp (Option.some.inj hx).symm]
  · rw [h, hq]
    split
    · next hp =>
      cases hp
      rw [offered_of_no_room fun hroom => Nat.not_le.mpr hroom.2 hfull]
      rfl
    · rfl
  · rw [h]
    split
    · next hp => rw [offered_of_no_room fun hroom => hdown p hp hroom.1]
    · rfl

theorem sendFence_only : s.sendFence a
    = { s with agents := (s.sendFence a).agents, ports := (s.sendFence a).ports } := by
  rcases sendFence_course s a with ⟨q, -, -, h⟩ | ⟨q, -, -, -, h⟩ | ⟨-, h⟩
  · rw [h, place_only_ports]
  · rw [h]
    rfl
  · rw [h]

theorem sendFence_agent (b : AgentId) : (s.sendFence a).agent b = if b = a then
    { s.agent a with fenceOwed := ((s.sendFence a).agent a).fenceOwed } else s.agent b := by
  have hsame : s.agent b = if b = a then s.agent a else s.agent b := by
    split
    · next hb => rw [hb]
    · rfl
  rcases sendFence_course s a with ⟨q, -, -, h⟩ | ⟨q, -, -, -, h⟩ | ⟨-, h⟩
  · rw [h, place_agent, place_agent]
    exact hsame
  · rw [h, State.setAgent_agent, State.setAgent_agent, if_pos rfl]
  · rw [h]
    exact hsame

theorem sendFence_owed : ((s.sendFence a).agent a).fenceOwed = true ↔ (s.agent a).fenceOwed = true ∨
    ∃ p, (s.agent a).port = some p ∧ (s.port p).state = .up ∧ 32 ≤ (s.port p).outbound.length := by
  rcases sendFence_course s a with ⟨q, hq, hroom, h⟩ | ⟨q, hq, hup, hfull, h⟩ | ⟨hdown, h⟩
  · rw [h, place_agent]
    refine (or_iff_left ?_).symm
    rintro ⟨p, hp, -, hfull⟩
    rw [hq] at hp
    cases hp
    exact Nat.not_le.mpr hroom.2 hfull
  · rw [h, State.setAgent_agent, if_pos rfl]
    exact iff_of_true rfl (.inr ⟨q, hq, hup, hfull⟩)
  · rw [h]
    refine (or_iff_left ?_).symm
    rintro ⟨p, hp, hup, -⟩
    exact hdown p hp hup

end

/-! ## The parked requests dropped (R66) -/

theorem releaseEntry_entry (s : State) (e d : EntryId) :
    (s.releaseEntry e).entry d = if d = e then { s.entry e with state := .free } else s.entry d := by
  unfold State.releaseEntry
  dsimp only
  split
  · exact State.setEntry_entry s e d _
  · exact State.setEntry_entry s e d _
  · exact State.setEntry_entry s e d _

/-- The entries that are taken are FREE afterwards, and no other entry changes. -/
theorem dropEntries_entry (s : State) (pick : PoolEntry → Bool) (d : EntryId) : (s.dropEntries pick).entry d
    = if (s.entry d).state ≠ .free ∧ pick (s.entry d) = true then { s.entry d with state := .free }
      else s.entry d := by
  have hfold : ∀ (l : List EntryId) (t : State), (l.foldl (fun s e =>
      if (s.entry e).state ≠ .free ∧ pick (s.entry e) then s.releaseEntry e else s) t).entry d
      = if d ∈ l ∧ (t.entry d).state ≠ .free ∧ pick (t.entry d) = true then { t.entry d with state := .free }
        else t.entry d := fun l => by
    induction l with
    | nil => simp
    | cons e l ih =>
      intro t
      rw [List.foldl_cons, ih]
      by_cases hd : d = e
      · subst hd
        by_cases hpick : (t.entry d).state ≠ .free ∧ pick (t.entry d) = true
        · rw [if_pos hpick, releaseEntry_entry, if_pos rfl]
          exact (if_neg fun h => h.2.1 rfl).trans (if_pos ⟨List.mem_cons_self, hpick⟩).symm
        · rw [if_neg hpick, if_neg fun h => hpick h.2, if_neg fun h => hpick h.2]
      · have hstep : (if (t.entry e).state ≠ .free ∧ pick (t.entry e) = true then t.releaseEntry e
            else t).entry d = t.entry d := by
          split
          · rw [releaseEntry_entry, if_neg hd]
          · rfl
        rw [hstep]
        simp [hd]
  refine (hfold allEntries s).trans ?_
  simp [allEntries]

/-! ## The changes left (R101, step 3) -/

/-- From `s` to `t` agent `a` left changes it was asked by, and windows it held for them. -/
structure Quits (a : AgentId) (s t : State) : Prop where
  only : t = { s with windows := t.windows, agents := t.agents, slots := t.slots }
  agent : ∀ b, t.agent b = if b = a then { s.agent a with held := (t.agent a).held } else s.agent b

theorem Quits.refl (a : AgentId) (s : State) : Quits a s s := ⟨rfl, fun b => by
  split
  · next hb => rw [hb]
  · rfl⟩

theorem Quits.trans {a : AgentId} {s t u : State} (h : Quits a s t) (h' : Quits a t u) : Quits a s u where
  only := by rw [h'.only, h.only]
  agent b := by
    rw [h'.agent]
    by_cases hb : b = a
    · rw [if_pos hb, if_pos hb, h.agent, if_pos rfl]
    · rw [if_neg hb, if_neg hb, h.agent, if_neg hb]

theorem dropHolder_quits (s : State) (w : WindowId) (a : AgentId) : Quits a s (s.dropHolder w a) := by
  by_cases h : hasAgent (s.window w).holders a = true
  · refine ⟨?_, fun b => ?_⟩
    · rw [dropHolder_of_holder h]
      rfl
    · rw [dropHolder_agent_of_holder h, dropHolder_agent_of_holder h, if_pos rfl]
  · rw [dropHolder_of_no_holder (by simpa using h)]
    exact .refl a s

theorem dropPending_quits (s : State) (k : SlotId) (a : AgentId) : Quits a s (s.dropPending k a) :=
  ⟨rfl, (Quits.refl a s).agent⟩

theorem dropAnswer_quits (s : State) (k : SlotId) (a : AgentId) : Quits a s (s.dropAnswer k a) := by
  cases hw : subjectWindow (s.slot k).subject with
  | none =>
    rw [dropAnswer_of_no_window hw]
    exact dropPending_quits s k a
  | some w =>
    rw [dropAnswer_of_window hw]
    exact (dropHolder_quits s w a).trans (dropPending_quits _ k a)

theorem dropAnswer_slot (s : State) (k : SlotId) (a : AgentId) (j : SlotId) :
    (s.dropAnswer k a).slot j = (s.dropPending k a).slot j := by
  unfold State.dropAnswer
  split
  · exact dropHolder_slot _ _ _ _
  · rfl

theorem quitSlot_quits (s : State) (a : AgentId) (k : SlotId) : Quits a s (s.quitSlot a k) := by
  unfold State.quitSlot
  split
  · exact dropAnswer_quits s k a
  · exact .refl a s

theorem quitSlots_quits (s : State) (a : AgentId) : Quits a s (s.quitSlots a) :=
  foldl_invariant (Quits a s) _ (fun t k h => h.trans (quitSlot_quits t a k)) allSlots s (.refl a s)

theorem quitSlot_slot (s : State) (a : AgentId) (k j : SlotId) : (s.quitSlot a k).slot j =
    if j = k ∧ (s.slot j).state = .active ∧ hasAgent (s.slot j).pending a = true then { s.slot j with
      pending := dropAgent (s.slot j).pending a, unsent := dropAgent (s.slot j).unsent a } else s.slot j := by
  unfold State.quitSlot
  by_cases hk : (s.slot k).state = .active ∧ hasAgent (s.slot k).pending a = true
  · rw [if_pos hk, dropAnswer_slot, dropPending_slot]
    by_cases hj : j = k
    · subst hj
      rw [if_pos rfl, if_pos ⟨rfl, hk⟩]
    · rw [if_neg hj, if_neg fun h => hj h.1]
  · rw [if_neg hk, if_neg]
    rintro ⟨rfl, h⟩
    exact hk h

theorem foldl_quitSlot_slot (l : List SlotId) (s : State) (a : AgentId) (j : SlotId) :
    (l.foldl (fun s k => s.quitSlot a k) s).slot j =
      if j ∈ l ∧ (s.slot j).state = .active ∧ hasAgent (s.slot j).pending a = true then { s.slot j with
        pending := dropAgent (s.slot j).pending a, unsent := dropAgent (s.slot j).unsent a } else s.slot j := by
  induction l generalizing s with
  | nil => simp
  | cons k l ih =>
    rw [List.foldl_cons, ih, quitSlot_slot]
    by_cases hj : j = k
    · subst hj
      by_cases hasked : (s.slot j).state = .active ∧ hasAgent (s.slot j).pending a = true
      · simp [hasked, hasAgent_dropAgent]
      · simp [hasked]
    · simp [hj]

theorem quitSlots_slot (s : State) (a : AgentId) (j : SlotId) : (s.quitSlots a).slot j =
    if (s.slot j).state = .active ∧ hasAgent (s.slot j).pending a = true then { s.slot j with
      pending := dropAgent (s.slot j).pending a, unsent := dropAgent (s.slot j).unsent a } else s.slot j := by
  unfold State.quitSlots
  rw [foldl_quitSlot_slot]
  simp [allSlots]

/-! ## The purge start toward FENCED (R38, R101) -/

/-- `t` is `s` after the purge start of agent `a` toward FENCED. -/
structure FencePurge (a : AgentId) (s t : State) : Prop where
  agent : ∀ b, t.agent b = if b = a then { s.agent a with
    state := .purging, target := some .fenced, welcomeOwed := false, fenceOwed := (t.agent a).fenceOwed,
    held := (t.agent a).held } else s.agent b
  owed : (t.agent a).fenceOwed = true ↔ (s.agent a).fenceOwed = true ∨
    ∃ p, (s.agent a).port = some p ∧ (s.port p).state = .up ∧ 32 ≤ (s.port p).outbound.length
  port : ∀ p, t.port p = if (s.agent a).port = some p then (s.port p).offered (.fence a) else s.port p
  purgeSet : t.purgeSet = addAgent s.purgeSet a
  entry : ∀ e, t.entry e = if (s.entry e).state ≠ .free ∧ (s.entry e).request.agent = a then
    { s.entry e with state := .free } else s.entry e
  slot : ∀ j, t.slot j = if (s.slot j).state = .active ∧ hasAgent (s.slot j).pending a = true then
    { s.slot j with
      pending := dropAgent (s.slot j).pending a, unsent := dropAgent (s.slot j).unsent a } else s.slot j

/-- The agent's record as a purge start toward FENCED sets it, its FENCE sent. -/
def State.fenceSent (s : State) (a : AgentId) : State :=
  (s.setAgent a { s.agent a with state := .purging, target := some .fenced, welcomeOwed := false }).sendFence a

theorem purgeStart_fenced (s : State) (a : AgentId) : s.purgeStart a .fenced =
    { ((s.fenceSent a).dropEntries fun e => e.request.agent == a).quitSlots a with
      purgeSet :=
        addAgent (((s.fenceSent a).dropEntries fun e => e.request.agent == a).quitSlots a).purgeSet a } :=
  rfl

theorem purgeStart_fencePurge (s : State) (a : AgentId) : FencePurge a s (s.purgeStart a .fenced) := by
  have hagent := sendFence_agent
    (s.setAgent a { s.agent a with state := .purging, target := some .fenced, welcomeOwed := false }) a
  have howed := sendFence_owed
    (s.setAgent a { s.agent a with state := .purging, target := some .fenced, welcomeOwed := false }) a
  have hport := sendFence_port
    (s.setAgent a { s.agent a with state := .purging, target := some .fenced, welcomeOwed := false }) a
  have honly := sendFence_only
    (s.setAgent a { s.agent a with state := .purging, target := some .fenced, welcomeOwed := false }) a
  simp only [State.setAgent_agent, if_true, State.setAgent_port] at hagent howed hport
  rw [purgeStart_fenced]
  unfold State.fenceSent
  generalize (s.setAgent a { s.agent a with
    state := .purging, target := some .fenced, welcomeOwed := false }).sendFence a = x at *
  have hentry := dropEntries_entry x fun e => e.request.agent == a
  obtain ⟨pool, parkOrders, replayList, hpool⟩ := dropEntries_only_pool x fun e => e.request.agent == a
  generalize x.dropEntries (fun e => e.request.agent == a) = y at hentry hpool
  have hquits := quitSlots_quits y a
  have hslot := quitSlots_slot y a
  generalize y.quitSlots a = z at hquits hslot
  have hyagent : ∀ b, y.agent b = x.agent b := fun b => by
    rw [hpool]
    rfl
  have hyport : ∀ p, y.port p = x.port p := fun p => by
    rw [hpool]
    rfl
  have hyslot : ∀ j, y.slot j = s.slot j := fun j => by
    rw [hpool, honly]
    rfl
  have hzowed : (z.agent a).fenceOwed = (x.agent a).fenceOwed := by
    rw [hquits.agent, if_pos rfl, hyagent]
  refine ⟨fun b => ?_, ?_, fun p => ?_, ?_, fun e => ?_, fun j => ?_⟩
  · refine (hquits.agent b).trans ?_
    rw [hyagent, hyagent]
    by_cases hb : b = a
    · rw [if_pos hb, if_pos hb, hagent, if_pos rfl, ← hzowed]
      rfl
    · rw [if_neg hb, if_neg hb, hagent, if_neg hb, if_neg hb]
  · show (z.agent a).fenceOwed = true ↔ _
    rw [hzowed, howed]
  · show z.port p = _
    rw [hquits.only]
    exact (hyport p).trans (hport p)
  · show addAgent z.purgeSet a = _
    rw [hquits.only, hpool, honly]
    rfl
  · show z.entry e = _
    rw [hquits.only]
    refine (hentry e).trans ?_
    rw [honly]
    show (if (s.entry e).state ≠ .free ∧ ((s.entry e).request.agent == a) = true then _ else s.entry e) = _
    exact if_congr (and_congr_right fun _ => beq_iff_eq) rfl rfl
  · show z.slot j = _
    rw [hslot, hyslot]

end Sys2Proof.Machine
end

section
/-! SUPPORT. A run of fences, and what settling keeps of it (R38, R88, R101). -/

namespace Sys2Proof.Machine

/-! ## The fence of an agent in any state (R38) -/

/-- The agent is FENCED, or on its way there. -/
def Agent.Fencing (r : Agent) : Prop := r.state = .fenced ∨ r.state = .purging ∧ r.target = some .fenced

section
variable {s : State}

theorem fence_of_active {a : AgentId} (h : (s.agent a).state = .active) :
    s.fence a = s.purgeStart a .fenced := by
  simp only [State.fence, h]

theorem fence_agent_of_ne (s : State) {a b : AgentId} (hb : b ≠ a) : (s.fence a).agent b = s.agent b := by
  have hset : ∀ r, (s.setAgent a r).agent b = s.agent b := fun r => by rw [State.setAgent_agent, if_neg hb]
  unfold State.fence
  dsimp only
  split
  · rw [(purgeStart_fencePurge s a).agent, if_neg hb]
  · split
    · rfl
    · rw [sendFence_agent, if_neg hb, hset]
  · exact hset _
  · rfl

theorem fence_fencing (s : State) (a : AgentId) : ((s.fence a).agent a).Fencing := by
  unfold State.fence
  dsimp only
  split
  · rw [(purgeStart_fencePurge s a).agent, if_pos rfl]
    exact .inr ⟨rfl, rfl⟩
  · next hpurging =>
    split
    · next htarget => exact .inr ⟨hpurging, htarget⟩
    · rw [sendFence_agent, if_pos rfl, State.setAgent_agent, if_pos rfl]
      exact .inr ⟨hpurging, rfl⟩
  · rw [State.setAgent_agent, if_pos rfl]
    exact .inl rfl
  · next hfenced => exact .inl hfenced

theorem fence_recallStep (s : State) (a : AgentId) (j : SlotId) : RecallStep (s.slot j) ((s.fence a).slot j) := by
  have hsame : ∀ t : State, t.ledger = s.ledger → RecallStep (s.slot j) (t.slot j) := fun t ht => by
    rw [slot_of_ledger ht]
    exact .refl _
  unfold State.fence
  dsimp only
  split
  · rw [(purgeStart_fencePurge s a).slot]
    split
    · exact recallStep_drop _ a
    · exact .refl _
  · split
    · exact .refl _
    · exact hsame _ (sendFence_ledger _ a)
  · exact .refl _
  · exact .refl _

end

/-! ## A run of fences -/

section
variable (l : List AgentId) (s : State)

theorem foldl_fence_agent_of_notMem {b : AgentId} (hb : b ∉ l) :
    (l.foldl (fun u a => u.fence a) s).agent b = s.agent b := by
  induction l generalizing s with
  | nil => rfl
  | cons a l ih =>
    obtain ⟨hba, hbl⟩ := List.ne_and_not_mem_of_not_mem_cons hb
    rw [List.foldl_cons, ih _ hbl, fence_agent_of_ne s hba]

theorem foldl_fence_recallStep (j : SlotId) :
    RecallStep (s.slot j) ((l.foldl (fun u a => u.fence a) s).slot j) :=
  foldl_invariant (fun t : State => RecallStep (s.slot j) (t.slot j)) _
    (fun t a h => h.trans (fence_recallStep t a j)) l s (.refl _)

theorem foldl_fence_fencing (hl : l.Nodup) {a : AgentId} (ha : a ∈ l) :
    ((l.foldl (fun u a => u.fence a) s).agent a).Fencing := by
  obtain ⟨before, after, rfl⟩ := List.append_of_mem ha
  have hafter : a ∉ after := (List.nodup_cons.mp (List.nodup_append.mp hl).2.1).1
  rw [List.foldl_append, List.foldl_cons, foldl_fence_agent_of_notMem _ _ hafter]
  exact fence_fencing _ a

/-- Agents that are ACTIVE are fenced by a run of purge starts. -/
theorem foldl_fence_of_active (hl : l.Nodup) (h : ∀ a ∈ l, (s.agent a).state = .active) :
    l.foldl (fun u a => u.fence a) s = l.foldl (fun u a => u.purgeStart a .fenced) s := by
  induction l generalizing s with
  | nil => rw [List.foldl_nil, List.foldl_nil]
  | cons a l ih =>
    obtain ⟨hal, hl⟩ := List.nodup_cons.mp hl
    rw [List.foldl_cons, List.foldl_cons, fence_of_active (h a List.mem_cons_self)]
    refine ih _ hl fun b hb => ?_
    have hba : b ≠ a := fun he => hal (he ▸ hb)
    rw [(purgeStart_fencePurge s a).agent, if_neg hba]
    exact h b (List.mem_cons_of_mem _ hb)

theorem foldl_purgeStart_agent_of_notMem {b : AgentId} (hb : b ∉ l) :
    (l.foldl (fun u a => u.purgeStart a .fenced) s).agent b = s.agent b := by
  induction l generalizing s with
  | nil => rfl
  | cons a l ih =>
    obtain ⟨hba, hbl⟩ := List.ne_and_not_mem_of_not_mem_cons hb
    rw [List.foldl_cons, ih _ hbl, (purgeStart_fencePurge s a).agent, if_neg hba]

/-- A purge start leaves every agent bound to its port. -/
theorem purgeStart_bound (a b : AgentId) : ((s.purgeStart a .fenced).agent b).port = (s.agent b).port := by
  rw [(purgeStart_fencePurge s a).agent]
  split
  · next hb => rw [hb]
  · rfl

/-- The FENCEs of a run fill the free places of the UP ports. -/
theorem foldl_purgeStart_port (p : PortId) :
    (l.foldl (fun u a => u.purgeStart a .fenced) s).port p = if (s.port p).state = .up
      then (s.port p).loaded (offersTo (fun a => (s.agent a).port) OutMsg.fence l p) else s.port p :=
  foldl_offers (P := fun t : State => ∀ b, (t.agent b).port = (s.agent b).port)
    (fun t a h b => (purgeStart_bound t a b).trans (h b))
    (fun t a p h => by rw [(purgeStart_fencePurge t a).port, h]) l (s := s) (fun _ => rfl) p

/-- What a run of purge starts has done for its agent `a` is not undone. -/
theorem foldl_purgeStart_keeps {a : AgentId} : (hasAgent s.purgeSet a = true →
      hasAgent (l.foldl (fun u a => u.purgeStart a .fenced) s).purgeSet a = true) ∧
    ((∀ e, (s.entry e).state ≠ .free → (s.entry e).request.agent ≠ a) →
      ∀ e, ((l.foldl (fun u a => u.purgeStart a .fenced) s).entry e).state ≠ .free →
        ((l.foldl (fun u a => u.purgeStart a .fenced) s).entry e).request.agent ≠ a) ∧
    ((∀ j, (s.slot j).state = .active → hasAgent (s.slot j).pending a = false) →
      ∀ j, ((l.foldl (fun u a => u.purgeStart a .fenced) s).slot j).state = .active →
        hasAgent ((l.foldl (fun u a => u.purgeStart a .fenced) s).slot j).pending a = false) := by
  refine ⟨foldl_invariant (fun t : State => hasAgent t.purgeSet a = true) _ (fun t b h => ?_) l s,
    foldl_invariant (fun t : State => ∀ e, (t.entry e).state ≠ .free → (t.entry e).request.agent ≠ a) _
      (fun t b h e he => ?_) l s,
    foldl_invariant (fun t : State => ∀ j, (t.slot j).state = .active → hasAgent (t.slot j).pending a = false) _
      (fun t b h j hj => ?_) l s⟩
  · rw [(purgeStart_fencePurge t b).purgeSet, hasAgent_addAgent, h]
    rfl
  · rw [(purgeStart_fencePurge t b).entry] at he ⊢
    split at he
    · exact absurd rfl he
    · next hkept =>
      rw [if_neg hkept]
      exact h e he
  · rw [(purgeStart_fencePurge t b).slot] at hj ⊢
    split at hj
    · next hdrop =>
      rw [if_pos hdrop, hasAgent_dropAgent, h j hdrop.1]
      rfl
    · next hkept =>
      rw [if_neg hkept]
      exact h j hj

/-- The agents of a set, all ACTIVE, are fenced in ascending number: what each of them is left with. -/
theorem foldl_purgeStart_agent (x : AgentSet) {a : AgentId} (ha : hasAgent x a = true) (u : State)
    (hu : u = (agentsOf x).foldl (fun u a => u.purgeStart a .fenced) s) :
    u.agent a = { s.agent a with
        state := .purging, target := some .fenced, welcomeOwed := false, fenceOwed := (u.agent a).fenceOwed,
        held := (u.agent a).held } ∧
      ((u.agent a).fenceOwed = true ↔ (s.agent a).fenceOwed = true ∨
        ∃ p, (s.agent a).port = some p ∧ (s.port p).state = .up ∧
          32 ≤ (s.port p).outbound.length + s.boundBefore x p a) ∧
      hasAgent u.purgeSet a = true ∧ (∀ e, (u.entry e).state ≠ .free → (u.entry e).request.agent ≠ a) ∧
      ∀ j, (u.slot j).state = .active → hasAgent (u.slot j).pending a = false := by
  obtain ⟨before, after, hsplit, hbefore, hafter, hcount⟩ := agentsOf_split ha
  rw [hsplit, List.foldl_append, List.foldl_cons] at hu
  have hport := foldl_purgeStart_port before s
  have hagent := foldl_purgeStart_agent_of_notMem before s hbefore
  generalize before.foldl (fun u a => u.purgeStart a .fenced) s = y at hport hagent hu
  have hpurge := purgeStart_fencePurge y a
  generalize y.purgeStart a .fenced = z at hpurge hu
  have hlast : u.agent a = z.agent a := by rw [hu, foldl_purgeStart_agent_of_notMem after z hafter]
  obtain ⟨hset, hentries, hslots⟩ := foldl_purgeStart_keeps after z (a := a)
  rw [← hu] at hset hentries hslots
  refine ⟨?_, ?_, hset ?_, hentries fun e he => ?_, hslots fun j hj => ?_⟩
  · rw [hlast, ← hagent]
    exact (hpurge.agent a).trans (if_pos rfl)
  · rw [hlast, hpurge.owed, hagent]
    refine or_congr Iff.rfl (exists_congr fun p => and_congr_right fun _ => ?_)
    rw [hport]
    by_cases hup : (s.port p).state = .up
    · rw [if_pos hup, Port.loaded_full_iff, offersTo, List.length_map, ← List.countP_eq_length_filter, hcount]
      rfl
    · rw [if_neg hup]
      exact iff_of_false (fun h => hup h.1) fun h => hup h.1
  · rw [hpurge.purgeSet, hasAgent_addAgent]
    simp
  · rw [hpurge.entry] at he ⊢
    split at he
    · exact absurd rfl he
    · next hkept =>
      rw [if_neg hkept]
      exact fun hrequest => hkept ⟨he, hrequest⟩
  · rw [hpurge.slot] at hj ⊢
    split at hj
    · next hdrop => rw [if_pos hdrop, hasAgent_dropAgent, decide_eq_false fun h => h rfl, Bool.and_false]
    · next hkept =>
      rw [if_neg hkept, Bool.eq_false_iff]
      exact fun hpending => hkept ⟨hj, hpending⟩

end

/-! ## Settling keeps what was fenced (R91, R36) -/

section
variable {s : State}

/-- A completion counts holdings less and changes nothing else of an agent. -/
theorem completeSlot_agent (s : State) (k : SlotId) (a : AgentId) :
    (s.completeSlot k).1.agent a = { s.agent a with held := ((s.completeSlot k).1.agent a).held } := by
  have hwindow : ∀ w, subjectWindow (s.slot k).subject = some w →
      (s.completeSlot k).1.agent a = s.agent a := fun w hw => by
    rw [(completeSlot_of_window hw).only]
    rfl
  cases hz : (s.slot k).subject with
  | modify w => rw [hwindow w (by rw [hz]; rfl)]
  | retire w => rw [hwindow w (by rw [hz]; rfl)]
  | close c => rw [(completeSlot_of_close hz).agent]
  | leave c b =>
    rw [(completeSlot_of_leave hz).agent]
    split
    · next hb => rw [hb]
    · rfl

theorem leaveFirst_agent (s : State) (k : SlotId) (a : AgentId) :
    (s.leaveFirst k).agent a = { s.agent a with held := ((s.leaveFirst k).agent a).held } := by
  unfold State.leaveFirst
  split
  · split
    · rw [(leaveHoldings_leftBy s _ _).agent]
    · rfl
    · rfl
    · rfl
  · rfl

theorem completeIfEmptied_agent (x : State × List Completion) (k : SlotId) (a : AgentId) :
    (completeIfEmptied x k).1.agent a = { x.1.agent a with held := ((completeIfEmptied x k).1.agent a).held } := by
  unfold completeIfEmptied
  split
  · exact completeSlot_agent x.1 k a
  · rfl

theorem completeEmptied_fencing {a : AgentId} (h : (s.agent a).Fencing) :
    (s.completeEmptied.1.agent a).Fencing := by
  have hheld : ∀ r r' : Agent, r' = { r with held := r'.held } → r.Fencing → r'.Fencing := fun r r' hr h => by
    rw [hr]
    exact h
  have hleave : ((allSlots.foldl State.leaveFirst s).agent a).Fencing :=
    foldl_invariant (fun t : State => (t.agent a).Fencing) _
      (fun t k ht => hheld _ _ (leaveFirst_agent t k a) ht) allSlots s h
  unfold State.completeEmptied
  generalize allSlots.foldl State.leaveFirst s = u at hleave
  exact foldl_invariant (fun x : State × List Completion => (x.1.agent a).Fencing) _
    (fun x k hx => hheld _ _ (completeIfEmptied_agent x k a) hx) allSlots (u, []) hleave

theorem endPurge_fencing {a : AgentId} (h : (s.agent a).Fencing) (b : AgentId) :
    ((s.endPurge none b).agent a).Fencing := by
  by_cases hab : a = b
  · subst hab
    by_cases hover : s.PurgeIsOver a
    · have htarget : (s.agent a).target = some .fenced := by
        rcases h with h | h
        · rw [hover.1] at h
          cases h
        · exact h.2
      have hstate := reachTarget_state none htarget
      rw [endPurge_over hover]
      exact .inl hstate
    · rw [endPurge_not_over hover]
      exact h
  · rw [endPurge_agent_of_ne s none hab]
    exact h

theorem settle_fencing {a : AgentId} (h : (s.agent a).Fencing) : ((s.settle none false).agent a).Fencing := by
  have hcompleted := completeEmptied_fencing h
  rw [settle_agent]
  generalize s.completeEmptied.1 = u at hcompleted
  exact foldl_invariant (fun t : State => (t.agent a).Fencing) _ (fun t b ht => endPurge_fencing ht b) allAgents u
    hcompleted

/-- Settling posts records and ends fence waits; the command queue and the wait for a slot stay. -/
theorem settle_waiting (s : State) : (s.settle none false).cmdQueue = s.cmdQueue ∧
    (s.settle none false).slotWait = s.slotWait := by
  have hengine : (s.completeEmptied.1.endPurges none).engine = s.engine := by
    rw [endPurges_engine, completeEmptied_engine]
  unfold State.settle
  dsimp only
  generalize s.completeEmptied.1.endPurges none = u at hengine
  rw [postAll_eq]
  exact ⟨congrArg Engine.cmdQueue hengine, congrArg Engine.slotWait hengine⟩

/-- The records of the changes completed are among those posted. -/
theorem mem_settle_completions {c : Completion} (h : c ∈ s.completeEmptied.2) :
    c ∈ (s.settle none false).completions := by
  unfold State.settle
  dsimp only
  rw [postAll_eq]
  exact List.mem_append_right _ (List.mem_append_left _ h)

/-! ## The record of an emptied change (R96) -/

/-- The record `c` is that of the change in a slot with the record `r`. -/
def Completion.Tells (c : Completion) (r : Slot) : Prop :=
  c.tag = r.tag ∧ c.status = changeStatus r.fenced ∧ c.kind = commandCode (changeCommand r.subject)

theorem Completion.Tells.of_recallStep {c : Completion} {r r' : Slot} (hr : RecallStep r r') (h : c.Tells r') :
    c.Tells r := by
  rw [hr.record] at h
  exact h

theorem completeIfEmptied_records (x : State × List Completion) (k : SlotId) {c : Completion} (h : c ∈ x.2) :
    c ∈ (completeIfEmptied x k).2 := by
  unfold completeIfEmptied
  split
  · exact List.mem_append_left _ h
  · exact h

theorem foldl_completeIfEmptied_record (l : List SlotId) (x : State × List Completion) {k : SlotId} (hk : k ∈ l)
    (hemptied : x.1.Emptied k) : ∃ c ∈ (l.foldl completeIfEmptied x).2, c.Tells (x.1.slot k) := by
  induction l generalizing x with
  | nil => cases hk
  | cons j l ih =>
    by_cases hj : k = j
    · subst hj
      have hturn : (x.1.completeSlot k).2 ∈ (completeIfEmptied x k).2 := by
        rw [completeIfEmptied, if_pos hemptied]
        exact List.mem_append_right _ List.mem_cons_self
      refine ⟨(x.1.completeSlot k).2, ?_, rfl, rfl, rfl⟩
      exact foldl_invariant (fun y : State × List Completion => (x.1.completeSlot k).2 ∈ y.2) _
        (fun y i hy => completeIfEmptied_records y i hy) l _ hturn
    · have hstep : RecallStep (x.1.slot k) ((completeIfEmptied x j).1.slot k) := by
        unfold completeIfEmptied
        split
        · exact completeSlot_recallStep x.1 hj
        · exact .refl _
      obtain ⟨c, hc, htells⟩ := ih _ ((List.mem_cons.mp hk).resolve_left hj) (hstep.emptied_slot hemptied)
      exact ⟨c, hc, htells.of_recallStep hstep⟩

/-- A change that is emptied when the claim settles leaves its completion record. -/
theorem settle_record {k : SlotId} (hemptied : s.Emptied k) :
    ∃ c ∈ (s.settle none false).completions, c.Tells (s.slot k) := by
  have hstep : RecallStep (s.slot k) ((allSlots.foldl State.leaveFirst s).slot k) :=
    foldl_invariant (fun t : State => RecallStep (s.slot k) (t.slot k)) State.leaveFirst
      (fun t j ht => ht.trans (leaveFirst_recallStep t j k)) allSlots s (.refl _)
  have hrecord : ∃ c ∈ s.completeEmptied.2, c.Tells (s.slot k) := by
    unfold State.completeEmptied
    generalize allSlots.foldl State.leaveFirst s = u at hstep
    obtain ⟨c, hc, htells⟩ := foldl_completeIfEmptied_record allSlots (u, []) (List.mem_finRange k)
      (hstep.emptied_slot hemptied)
    exact ⟨c, hc, htells.of_recallStep hstep⟩
  obtain ⟨c, hc, htells⟩ := hrecord
  exact ⟨c, mem_settle_completions hc, htells⟩

end

/-! ## The first steps of a timeout (R88, R89) -/

section
variable (s : State) (k : SlotId)

theorem lapse_slot (j : SlotId) : (s.lapse k).slot j = if j = k then (s.slot k).lapsed else s.slot j := by
  rw [slot_of_ledger (lapse_ledger s k), State.setSlot_slot]

theorem lapse_of_window {w : WindowId} (h : subjectWindow (s.slot k).subject = some w) : s.lapse k =
    { (s.setSlot k (s.slot k).lapsed).dropHolders w (s.slot k).pending with
      recallBank := recordRecall s.recallBank (s.slot k).serial (s.slot k).subject
        ((s.slot k).fenced ||| (s.slot k).pending) } := by
  have hdrop := (dropHolders_changed (s.setSlot k (s.slot k).lapsed) w (s.slot k).pending).only
  unfold State.lapse
  dsimp only
  rw [h]
  dsimp only
  rw [show ((s.setSlot k { s.slot k with
      fenced := (s.slot k).fenced ||| (s.slot k).pending, pending := 0, unsent := 0, due := .nothing }).dropHolders
        w (s.slot k).pending).recallBank = s.recallBank from by
    have hbank := congrArg State.recallBank hdrop
    exact hbank]
  rfl

theorem lapse_of_no_window (h : subjectWindow (s.slot k).subject = none) : s.lapse k =
    { s.setSlot k (s.slot k).lapsed with
      recallBank := recordRecall s.recallBank (s.slot k).serial (s.slot k).subject
        ((s.slot k).fenced ||| (s.slot k).pending) } := by
  unfold State.lapse
  dsimp only
  rw [h]
  rfl

theorem lapse_only : s.lapse k = { s with
    slots := (s.lapse k).slots, windows := (s.lapse k).windows, agents := (s.lapse k).agents,
    recallBank := recordRecall s.recallBank (s.slot k).serial (s.slot k).subject
      ((s.slot k).fenced ||| (s.slot k).pending) } := by
  cases h : subjectWindow (s.slot k).subject with
  | none =>
    rw [lapse_of_no_window s k h]
    rfl
  | some w =>
    rw [lapse_of_window s k h, (dropHolders_changed _ w _).only]
    rfl

theorem lapse_window {w : WindowId} (h : subjectWindow (s.slot k).subject = some w) (v : WindowId) :
    (s.lapse k).window v = if v = w then
      { s.window w with holders := (s.window w).holders &&& ~~~(s.slot k).pending } else s.window v := by
  have hchanged := dropHolders_changed (s.setSlot k (s.slot k).lapsed) w (s.slot k).pending
  have hset : (((s.setSlot k (s.slot k).lapsed).dropHolders w (s.slot k).pending).window w).holders
      = (s.window w).holders &&& ~~~(s.slot k).pending := agentSet_ext fun a => by
    rw [hasAgent_dropHolders, hasAgent_and_not]
    rfl
  rw [lapse_of_window s k h]
  show ((s.setSlot k (s.slot k).lapsed).dropHolders w (s.slot k).pending).window v = _
  by_cases hv : v = w
  · rw [if_pos hv, hv, hchanged.record, hset]
    rfl
  · rw [if_neg hv, hchanged.others v hv]
    rfl

theorem lapse_agent {w : WindowId} (h : subjectWindow (s.slot k).subject = some w) (a : AgentId) :
    (s.lapse k).agent a = if hasAgent (s.slot k).pending a = true ∧ hasAgent (s.window w).holders a = true then
      { s.agent a with held := (s.agent a).held - 1 } else s.agent a := by
  rw [lapse_of_window s k h]
  exact dropHolders_agent (s.setSlot k (s.slot k).lapsed) w (s.slot k).pending a

/-- The first steps of a timeout count holdings less and change nothing else of an agent. -/
theorem lapse_agent_record (a : AgentId) :
    (s.lapse k).agent a = { s.agent a with held := ((s.lapse k).agent a).held } := by
  cases h : subjectWindow (s.slot k).subject with
  | none =>
    rw [lapse_of_no_window s k h]
    rfl
  | some w =>
    rw [lapse_agent s k h]
    split
    · rfl
    · rfl

theorem lapse_emptied {k : SlotId} (h : (s.slot k).state = .active) : (s.lapse k).Emptied k := by
  rw [State.Emptied, lapse_slot, if_pos rfl]
  exact ⟨h, rfl⟩

end

/-! ## The timeout (R88) -/

/-- The timeout's claim before it settles: its late agents are fenced. -/
def State.fencedLate (s : State) (k : SlotId) : State :=
  (agentsOf (s.slot k).pending).foldl (fun u a => u.fence a) (s.lapse k)

theorem timeOut_eq (s : State) (k : SlotId) :
    s.timeOut k = ((s.fencedLate k).settle none false).reconsider none := rfl

theorem fencedLate_recallStep (s : State) (k j : SlotId) :
    RecallStep ((s.lapse k).slot j) ((s.fencedLate k).slot j) := foldl_fence_recallStep _ _ j

theorem fencedLate_waiting (s : State) (k : SlotId) : (s.fencedLate k).engine = s.engine := by
  have hlapse : (s.lapse k).engine = s.engine := by rw [lapse_only]; rfl
  exact (foldl_keeps State.engine (fun u a => u.fence a) (fun u a => fence_engine u a) _ _).trans hlapse

theorem fencedLate_recallBank (s : State) (k : SlotId) : ((s.fencedLate k).settle none false).recallBank
    = recordRecall s.recallBank (s.slot k).serial (s.slot k).subject
        ((s.slot k).fenced ||| (s.slot k).pending) := by
  have hlapse : (s.lapse k).recallBank = recordRecall s.recallBank (s.slot k).serial (s.slot k).subject
      ((s.slot k).fenced ||| (s.slot k).pending) := by rw [lapse_only]
  have hfold : (s.fencedLate k).outside = (s.lapse k).outside :=
    foldl_keeps State.outside (fun u a => u.fence a) (fun u a => fence_outside u a) _ _
  have hsettle := (settle_outside (s.fencedLate k) none false).trans hfold
  rw [← hlapse]
  generalize (s.fencedLate k).settle none false = t at hsettle
  exact congrArg Outside.recallBank hsettle

/-- The late agents, all ACTIVE, when they are fenced. -/
theorem fencedLate_of_active {s : State} {k : SlotId}
    (h : ∀ a, hasAgent (s.slot k).pending a = true → (s.agent a).state = .active) :
    s.fencedLate k = (agentsOf (s.slot k).pending).foldl (fun u a => u.purgeStart a .fenced) (s.lapse k) :=
  foldl_fence_of_active _ _ (nodup_agentsOf _) fun a ha => by
    rw [lapse_agent_record]
    exact h a ((mem_agentsOf _ a).mp ha)

theorem or_ne_zero_of_right {x y : AgentSet} (h : y ≠ 0) : x ||| y ≠ 0 := fun he => h <| agentSet_ext fun a => by
  have ha := hasAgent_or x y a
  rw [he, hasAgent_zero] at ha
  rw [hasAgent_zero]
  exact (Bool.or_eq_false_iff.mp ha.symm).2

/-- Settles O10: the late agents leave the change's records, are fenced one after the other, and the emptied
change completes when the claim settles. -/
theorem timeoutFencesTheLate : Obligations.TimeoutFencesTheLate := by
  intro s k hserving hdue hlate r late
  have hactive : (s.slot k).state = .active := (dueOf_eq_due hdue nofun).1
  have hbound : ∀ a, ((s.lapse k).agent a).port = (s.agent a).port := fun a => by rw [lapse_agent_record]
  have hport : ∀ p, (s.lapse k).port p = s.port p := fun p => by
    rw [lapse_only]
    rfl
  have hstep := fencedLate_recallStep s k k
  have hemptied : (s.fencedLate k).Emptied k := hstep.emptied_slot (lapse_emptied s hactive)
  have hwait : ((s.fencedLate k).settle none false).slotWait = s.slotWait :=
    (settle_waiting _).2.trans (congrArg Engine.slotWait (fencedLate_waiting s k))
  refine ⟨s.lapse k, lapse_only s k, lapse_slot s k, fun hnone => ?_, fun w hw => ⟨lapse_window s k hw,
    lapse_agent s k hw⟩, ?_⟩
  · rw [lapse_of_no_window s k hnone]
    exact ⟨rfl, rfl⟩
  intro u
  have hu : u = s.fencedLate k := rfl
  refine ⟨fun hall => ?_, ?_⟩
  · have hrun := fencedLate_of_active hall
    refine ⟨fun p => ?_, fun a ha => ?_⟩
    · rw [hu, hrun, foldl_purgeStart_port, hport]
      simp only [offersTo, hbound]
      rfl
    · obtain ⟨hagent, howed, hset, hentries, hslots⟩ :=
        foldl_purgeStart_agent (s.lapse k) late ha u (hu.trans hrun)
      have hbefore : ∀ p, (s.lapse k).boundBefore late p a = s.boundBefore late p a := fun p => by
        unfold State.boundBefore
        simp only [hbound]
      refine ⟨?_, ?_, hset, hentries, hslots⟩
      · rw [lapse_agent_record] at hagent
        exact hagent
      · rw [lapse_agent_record] at howed
        simpa only [hport, hbefore] using howed
  · intro t
    have ht : t = (s.fencedLate k).settle none false := rfl
    refine ⟨?_, fun hw => reconsider_of_none_waiting (hwait.trans hw) none, hwait, ?_,
      settle_frees hemptied none false, fun a ha => ?_, fencedLate_recallBank s k, ?_,
      fun honly hafter => settle_of_one_emptied hemptied honly hafter⟩
    · rw [exec_recallTimeout_of_due hserving hdue, timeOut_eq, ht]
    · exact (settle_waiting _).1.trans (congrArg Engine.cmdQueue (fencedLate_waiting s k))
    · exact settle_fencing (foldl_fence_fencing _ _ (nodup_agentsOf late) ((mem_agentsOf late a).mpr ha))
    · obtain ⟨c, hc, htells⟩ := settle_record hemptied
      obtain ⟨htag, hstatus, hkind⟩ := htells.of_recallStep hstep
      rw [lapse_slot, if_pos rfl] at htag hstatus hkind
      exact ⟨c, hc, htag, hstatus.trans (if_neg (or_ne_zero_of_right hlate)), hkind⟩

end Sys2Proof.Machine
end

section
/-! SUPPORT. The purge start of an agent toward any target (O34): the record and the FENCE, the requests
dropped, and the changes left, each with what it leaves as it was. -/

namespace Sys2Proof.Machine

/-! ## The record of the agent, and its FENCE (R38, R101) -/

/-- `s` with agent `a` PURGING toward `target`, its FENCE sent where the target is FENCED. -/
def State.purgeMarked (s : State) (a : AgentId) (target : PurgeTarget) : State :=
  let t := s.setAgent a { s.agent a with
    state := .purging, target := some target, welcomeOwed := decide (target = .active) }
  if target = .fenced then t.sendFence a else t

/-- `t` is `s` with agent `a` PURGING toward `target`, its FENCE placed, owed, or left to the next UP. -/
structure PurgeMarked (a : AgentId) (target : PurgeTarget) (s t : State) : Prop where
  only : t = { s with agents := t.agents, ports := t.ports }
  agent : ∀ b, t.agent b = if b = a then { s.agent a with
    state := .purging, target := some target, welcomeOwed := decide (target = .active),
    fenceOwed := (t.agent a).fenceOwed } else s.agent b
  owed : (t.agent a).fenceOwed = true ↔ (s.agent a).fenceOwed = true ∨ ∃ p,
    (target = .fenced ∧ (s.agent a).port = some p ∧ (s.port p).state = .up) ∧ 32 ≤ (s.port p).outbound.length
  port : ∀ p, t.port p = if target = .fenced ∧ (s.agent a).port = some p
    then (s.port p).offered (.fence a) else s.port p

theorem purgeMarked_marks (s : State) (a : AgentId) (target : PurgeTarget) :
    PurgeMarked a target s (s.purgeMarked a target) := by
  unfold State.purgeMarked
  dsimp only
  generalize hr : ({ s.agent a with
    state := .purging, target := some target, welcomeOwed := decide (target = .active) } : Agent) = r
  have hagent : ∀ b, (s.setAgent a r).agent b = if b = a then r else s.agent b :=
    fun b => State.setAgent_agent s a b r
  have hrport : r.port = (s.agent a).port := by rw [← hr]
  have hrowed : r.fenceOwed = (s.agent a).fenceOwed := by rw [← hr]
  by_cases ht : target = .fenced
  · have hsent := sendFence_agent (s.setAgent a r) a
    have howed := sendFence_owed (s.setAgent a r) a
    have hport := sendFence_port (s.setAgent a r) a
    simp only [hagent, if_true, State.setAgent_port, hrport, hrowed] at hsent howed hport
    rw [if_pos ht]
    refine ⟨by rw [sendFence_only]; rfl, fun b => ?_, ?_, fun p => ?_⟩
    · rw [hsent, ← hr]
      split
      · rfl
      · rfl
    · simp only [howed, ht, true_and, and_assoc]
    · simp only [hport, ht, true_and]
  · rw [if_neg ht]
    refine ⟨rfl, fun b => ?_, ?_, fun p => (if_neg fun h => ht h.1).symm⟩
    · rw [hagent, hagent, if_pos rfl, ← hr]
    · rw [hagent, if_pos rfl, hrowed]
      exact (or_iff_left fun ⟨_, h, _⟩ => ht h.1).symm

/-! ## The lists of the pool without the entries dropped (R69, R70) -/

/-- The entries on a list of the pool: the park order of a window, or the replay list (R63). -/
def State.entriesOn (s : State) : Option WindowId → List EntryId
  | some w => s.parkOrder w
  | none => s.replayList

section
variable {s : State}

theorem entriesOn_nodup (h : PoolListed s) (x : Option WindowId) : (s.entriesOn x).Nodup := by
  obtain ⟨hreplay, hpark, -, -⟩ := h
  cases x with
  | none => exact hreplay
  | some w => exact hpark w

theorem mem_entriesOn_iff (h : PoolListed s) {x : Option WindowId} {e : EntryId} : e ∈ s.entriesOn x ↔
    match x with
    | some w => (s.entry e).state = .parked ∧ (s.entry e).window = w
    | none => (s.entry e).state = .replay := by
  obtain ⟨-, -, hreplay, hpark⟩ := h
  cases x with
  | none => exact hreplay e
  | some w => exact hpark e w

theorem used_of_mem_entriesOn (h : PoolListed s) {x : Option WindowId} {e : EntryId} (he : e ∈ s.entriesOn x) :
    (s.entry e).state ≠ .free := fun hfree => by
  rw [mem_entriesOn_iff h, hfree] at he
  cases x with
  | none => cases he
  | some w => cases he.1

theorem filter_ne_of_notMem {l : List EntryId} {e : EntryId} (h : e ∉ l) : l.filter (· != e) = l :=
  List.filter_eq_self.mpr fun _ hd => bne_iff_ne.mpr fun he => h (he ▸ hd)

/-- An entry that is freed leaves the list it is on, which keeps the order of the rest. -/
theorem releaseEntry_entriesOn (h : PoolListed s) (e : EntryId) (x : Option WindowId) :
    (s.releaseEntry e).entriesOn x = (s.entriesOn x).filter (· != e) := by
  have hmem := fun x => mem_entriesOn_iff h (x := x) (e := e)
  have herase := fun x => (entriesOn_nodup h x).erase_eq_filter e
  have hkeep : ∀ x, e ∉ s.entriesOn x → s.entriesOn x = (s.entriesOn x).filter (· != e) :=
    fun x hx => (filter_ne_of_notMem hx).symm
  unfold State.releaseEntry
  dsimp only
  cases hstate : (s.entry e).state with
  | free =>
    rw [show (s.setEntry e _).entriesOn x = s.entriesOn x by cases x <;> rfl]
    exact hkeep x fun he => used_of_mem_entriesOn h he hstate
  | parked =>
    cases x with
    | none => exact hkeep none fun he => by simp [hmem, hstate] at he
    | some w =>
      show State.parkOrder _ w = _
      rw [State.setParkOrder_parkOrder]
      split
      · next hw =>
        rw [hw]
        exact herase (some _)
      · next hw => exact hkeep (some w) fun he => hw ((hmem _).mp he).2.symm
  | replay =>
    cases x with
    | none => exact herase none
    | some w => exact hkeep (some w) fun he => by simp [hmem, hstate] at he

/-- The lists lose the entries that are taken, and keep the order of the rest. -/
theorem dropEntries_entriesOn (h : PoolListed s) (pick : PoolEntry → Bool) (x : Option WindowId) :
    (s.dropEntries pick).entriesOn x = (s.entriesOn x).filter fun e => !pick (s.entry e) := by
  have hfold : ∀ (l : List EntryId) (t : State), PoolListed t → (l.foldl (fun s e =>
      if (s.entry e).state ≠ .free ∧ pick (s.entry e) then s.releaseEntry e else s) t).entriesOn x
      = (t.entriesOn x).filter fun e => !(decide (e ∈ l) && pick (t.entry e)) := fun l => by
    induction l with
    | nil => simp
    | cons e l ih =>
      intro t ht
      rw [List.foldl_cons]
      by_cases hpick : (t.entry e).state ≠ .free ∧ pick (t.entry e) = true
      · rw [if_pos hpick, ih _ (releaseEntry_listed ht), releaseEntry_entriesOn ht, List.filter_filter]
        refine List.filter_congr fun d _ => ?_
        rw [releaseEntry_entry]
        by_cases hd : d = e
        · simp [hd, hpick.2]
        · simp [hd]
      · rw [if_neg hpick, ih t ht]
        refine List.filter_congr fun d hd => ?_
        by_cases hde : d = e
        · subst hde
          have hno : pick (t.entry d) = false := by
            simpa [used_of_mem_entriesOn ht hd] using hpick
          simp [hno]
        · simp [hde]
  refine (hfold allEntries s h).trans ?_
  simp [allEntries]

end

/-! ## The windows left (R18, R101, step 3) -/

/-- From `s` to `t` agent `a` has left the holder sets of the windows that `left` tells, and of no other. -/
structure WindowsLeft (a : AgentId) (left : WindowId → Bool) (s t : State) : Prop where
  window : ∀ w, t.window w = if left w = true
    then { s.window w with holders := dropAgent (s.window w).holders a } else s.window w
  held : (t.agent a).held = (s.agent a).held
    - (List.finRange 4096).countP fun w => hasAgent (s.window w).holders a && left w

theorem WindowsLeft.refl (a : AgentId) (s : State) : WindowsLeft a (fun _ => false) s s where
  window _ := rfl
  held := by simp

theorem dropAgent_of_not_mem {x : AgentSet} {a : AgentId} (h : hasAgent x a = false) : dropAgent x a = x :=
  agentSet_ext fun b => by
    rw [hasAgent_dropAgent]
    by_cases hb : b = a
    · rw [hb, h, Bool.false_and]
    · simp [hb]

theorem dropAgent_dropAgent (x : AgentSet) (a : AgentId) : dropAgent (dropAgent x a) a = dropAgent x a :=
  dropAgent_of_not_mem (by simp [hasAgent_dropAgent])

theorem dropHolder_window (s : State) (w : WindowId) (a : AgentId) (v : WindowId) :
    (s.dropHolder w a).window v
      = if v = w then { s.window w with holders := dropAgent (s.window w).holders a } else s.window v := by
  cases h : hasAgent (s.window w).holders a with
  | true => rw [dropHolder_of_holder h, State.setAgent_window, State.setWindow_window]
  | false =>
    rw [dropHolder_of_no_holder h, dropAgent_of_not_mem h]
    split
    · next hv => rw [hv]
    · rfl

section
variable {s t : State} {a : AgentId} {left : WindowId → Bool}

/-- One window more is left, and counts one holding less where the agent holds it yet. -/
theorem WindowsLeft.dropHolder (h : WindowsLeft a left s t) (w : WindowId) :
    WindowsLeft a (fun v => left v || decide (v = w)) s (t.dropHolder w a) where
  window v := by
    rw [dropHolder_window]
    by_cases hv : v = w
    · subst hv
      rw [if_pos rfl, h.window]
      by_cases hleft : left v = true
      · simp [hleft, dropAgent_dropAgent]
      · simp [hleft]
    · simp [hv, h.window]
  held := by
    by_cases hholds : hasAgent (t.window w).holders a = true
    · have hw : hasAgent (s.window w).holders a = true ∧ left w = false := by
        rw [h.window] at hholds
        split at hholds
        · simp [hasAgent_dropAgent] at hholds
        · next hleft => exact ⟨hholds, by simpa using hleft⟩
      rw [dropHolder_agent_of_holder hholds, if_pos rfl, countP_finRange_of_differ (n := 4096) w
        (q := fun v => hasAgent (s.window v).holders a && left v) (by simp [hw.1]) (by simp [hw.2])
        (fun v hv => by simp [hv]), Nat.sub_add_eq, ← h.held]
    · have hno : hasAgent (s.window w).holders a = true → left w = true := fun hs => by
        by_contra hleft
        rw [h.window, if_neg hleft] at hholds
        exact hholds hs
      rw [dropHolder_of_no_holder (by simpa using hholds), h.held]
      refine congrArg _ (List.countP_congr fun v _ => ?_)
      by_cases hv : v = w
      · subst hv
        simpa using hno
      · simp [hv]

/-- The change in slot `k` is one that agent `a` is asked by, on window `w` (R75). -/
abbrev State.AsksAt (s : State) (a : AgentId) (k : SlotId) (w : WindowId) : Prop :=
  (s.slot k).state = .active ∧ hasAgent (s.slot k).pending a = true ∧
    subjectWindow (s.slot k).subject = some w

theorem WindowsLeft.quitSlot (h : WindowsLeft a left s t) {k : SlotId} (hk : t.slot k = s.slot k) :
    WindowsLeft a (fun w => left w || decide (s.AsksAt a k w)) s (t.quitSlot a k) := by
  have hnone : (∀ w, ¬ s.AsksAt a k w) → (fun w => left w || decide (s.AsksAt a k w)) = left := fun hno =>
    funext fun w => by rw [decide_eq_false (hno w), Bool.or_false]
  have hsubject : (t.slot k).subject = (s.slot k).subject := by rw [hk]
  unfold State.quitSlot
  rw [hk]
  by_cases hasked : (s.slot k).state = .active ∧ hasAgent (s.slot k).pending a = true
  · rw [if_pos hasked]
    rcases Option.eq_none_or_eq_some (subjectWindow (s.slot k).subject) with hwindow | ⟨w, hwindow⟩
    · rw [dropAnswer_of_no_window (by rw [hsubject, hwindow]), hnone fun w hw => by
        cases hwindow.symm.trans hw.2.2]
      exact ⟨h.window, h.held⟩
    · have hasks : (fun v => left v || decide (s.AsksAt a k v)) = fun v => left v || decide (v = w) :=
        funext fun v => by simp [State.AsksAt, hasked, hwindow, eq_comm]
      rw [dropAnswer_of_window (by rw [hsubject, hwindow]), hasks]
      exact ⟨(h.dropHolder w).window, (h.dropHolder w).held⟩
  · rw [if_neg hasked, hnone fun w hw => hasked ⟨hw.1, hw.2.1⟩]
    exact h

/-- The windows left by an agent that quits the changes of a list of slots. -/
theorem WindowsLeft.foldl_quitSlot (l : List SlotId) (hl : l.Nodup) (h : WindowsLeft a left s t)
    (hslots : ∀ k ∈ l, t.slot k = s.slot k) :
    ∃ left', WindowsLeft a left' s (l.foldl (fun s k => s.quitSlot a k) t) ∧
      ∀ w, left' w = true ↔ left w = true ∨ ∃ k ∈ l, s.AsksAt a k w := by
  induction l generalizing left t with
  | nil => exact ⟨left, h, by simp⟩
  | cons k l ih =>
    obtain ⟨hkl, hl⟩ := List.nodup_cons.mp hl
    obtain ⟨left', hleft, hiff⟩ := ih hl (h.quitSlot (hslots k List.mem_cons_self)) fun j hj => by
      rw [quitSlot_slot, if_neg]
      · exact hslots j (List.mem_cons_of_mem k hj)
      · rintro ⟨rfl, -⟩
        exact hkl hj
    refine ⟨left', hleft, fun w => ?_⟩
    simp only [hiff, Bool.or_eq_true, decide_eq_true_eq, List.exists_mem_cons_iff, or_assoc]

end

theorem quitSlots_windowsLeft (s : State) (a : AgentId) :
    WindowsLeft a (fun w => decide (s.AwaitedAt a w)) s (s.quitSlots a) := by
  obtain ⟨left, hleft, hiff⟩ := WindowsLeft.foldl_quitSlot allSlots (List.nodup_finRange 8)
    (WindowsLeft.refl a s) fun _ _ => rfl
  have hawaited : left = fun w => decide (s.AwaitedAt a w) := funext fun w => by
    rw [Bool.eq_iff_iff, hiff, decide_eq_true_iff]
    simp [State.AwaitedAt, State.AsksAt, allSlots]
  exact hawaited ▸ hleft

/-! ## The purge start (R101) -/

theorem purgeStart_steps (s : State) (a : AgentId) (target : PurgeTarget) : s.purgeStart a target =
    { ((s.purgeMarked a target).dropEntries fun e => e.request.agent == a).quitSlots a with
      purgeSet := addAgent
        (((s.purgeMarked a target).dropEntries fun e => e.request.agent == a).quitSlots a).purgeSet a } := rfl

/-- `t` is `s` after the purge start of agent `a` toward `target`. -/
structure PurgeStarted (a : AgentId) (target : PurgeTarget) (s t : State) : Prop where
  only : t = { s with
    windows := t.windows, agents := t.agents, pool := t.pool, parkOrders := t.parkOrders,
    replayList := t.replayList, slots := t.slots, ports := t.ports, purgeSet := addAgent s.purgeSet a }
  agent : ∀ b, t.agent b = if b = a then { s.agent a with
    state := .purging, target := some target, welcomeOwed := decide (target = .active),
    fenceOwed := (t.agent a).fenceOwed, held := (s.agent a).held - s.awaitedHoldings a } else s.agent b
  owed : (t.agent a).fenceOwed = true ↔ (s.agent a).fenceOwed = true ∨ ∃ p,
    (target = .fenced ∧ (s.agent a).port = some p ∧ (s.port p).state = .up) ∧ 32 ≤ (s.port p).outbound.length
  port : ∀ p, t.port p = if target = .fenced ∧ (s.agent a).port = some p
    then (s.port p).offered (.fence a) else s.port p
  slot : ∀ k, t.slot k = if (s.slot k).state = .active ∧ hasAgent (s.slot k).pending a = true then
    { s.slot k with
      pending := dropAgent (s.slot k).pending a, unsent := dropAgent (s.slot k).unsent a } else s.slot k
  window : ∀ w, t.window w = if s.AwaitedAt a w
    then { s.window w with holders := dropAgent (s.window w).holders a } else s.window w
  entry : ∀ e, t.entry e = if (s.entry e).state ≠ .free ∧ (s.entry e).request.agent = a then
    { s.entry e with state := .free } else s.entry e
  lists : PoolListed s → ∀ x, t.entriesOn x
    = (s.entriesOn x).filter fun e => decide ((s.entry e).request.agent ≠ a)

theorem purgeStart_started (s : State) (a : AgentId) (target : PurgeTarget) :
    PurgeStarted a target s (s.purgeStart a target) := by
  have hmark := purgeMarked_marks s a target
  rw [purgeStart_steps]
  generalize s.purgeMarked a target = x at hmark ⊢
  have hparking : x.parking = s.parking := by rw [hmark.only]; rfl
  have hentry := dropEntries_entry x fun e => e.request.agent == a
  have hlists := fun h => dropEntries_entriesOn (s := x) (poolListed_of_parking hparking h)
    fun e => e.request.agent == a
  obtain ⟨pool, parkOrders, replayList, hpool⟩ := dropEntries_only_pool x fun e => e.request.agent == a
  generalize x.dropEntries (fun e => e.request.agent == a) = y at hentry hlists hpool ⊢
  have hquits := quitSlots_quits y a
  have hslot := quitSlots_slot y a
  have hleft := quitSlots_windowsLeft y a
  generalize y.quitSlots a = z at hquits hslot hleft ⊢
  have hxentry : ∀ e, x.entry e = s.entry e := fun e => by rw [hmark.only]; rfl
  have hxlists : ∀ l, x.entriesOn l = s.entriesOn l := fun l => by rw [hmark.only]; cases l <;> rfl
  have hyagent : ∀ b, y.agent b = x.agent b := fun b => by rw [hpool]; rfl
  have hyslot : ∀ k, y.slot k = s.slot k := fun k => by rw [hpool, hmark.only]; rfl
  have hywindow : ∀ w, y.window w = s.window w := fun w => by rw [hpool, hmark.only]; rfl
  have hawaited : ∀ w, y.AwaitedAt a w ↔ s.AwaitedAt a w := fun w => by simp only [State.AwaitedAt, hyslot]
  have hholdings : (z.agent a).held = (s.agent a).held - s.awaitedHoldings a := by
    rw [hleft.held, hyagent, hmark.agent, if_pos rfl, State.awaitedHoldings]
    simp only [hywindow, hawaited, Bool.decide_and, Bool.decide_eq_true]
  have hzowed : (z.agent a).fenceOwed = (x.agent a).fenceOwed := by
    rw [hquits.agent, if_pos rfl, hyagent]
  refine ⟨?_, fun b => ?_, ?_, fun p => ?_, fun k => ?_, fun w => ?_, fun e => ?_, fun h l => ?_⟩
  · rw [hquits.only, hpool, hmark.only]
  · refine (hquits.agent b).trans ?_
    rw [hyagent, hyagent, hholdings]
    by_cases hb : b = a
    · rw [if_pos hb, if_pos hb, hmark.agent, if_pos rfl, ← hzowed]
      rfl
    · rw [if_neg hb, if_neg hb, hmark.agent, if_neg hb]
  · exact hzowed ▸ hmark.owed
  · refine Eq.trans ?_ (hmark.port p)
    show z.port p = _
    rw [hquits.only, hpool]
    rfl
  · exact (hslot k).trans (by rw [hyslot])
  · refine (hleft.window w).trans ?_
    simp only [hywindow, hawaited, decide_eq_true_iff]
  · show z.entry e = _
    rw [hquits.only]
    refine (hentry e).trans ?_
    simp only [hxentry, beq_iff_eq]
  · have hz : z.entriesOn l = y.entriesOn l := by rw [hquits.only]; cases l <;> rfl
    refine Eq.trans ?_ ((hz.trans (hlists h l)).trans ?_)
    · cases l <;> rfl
    · rw [hxlists]
      refine List.filter_congr fun e _ => ?_
      rw [hxentry]
      by_cases he : (s.entry e).request.agent = a <;> simp [he]

/-- Settles O34: the record and the FENCE, the requests dropped and the changes left touch different fields, so
each clause is that of its step. -/
theorem purgeStartTakesTheAgentOut : Obligations.PurgeStartTakesTheAgentOut := by
  intro s a target t onPort
  have ht : PurgeStarted a target s t := purgeStart_started s a target
  refine ⟨ht.only, (ht.agent a).trans (if_pos rfl), ht.owed, fun b hb => (ht.agent b).trans (if_neg hb),
    fun p => ⟨fun hroom => ?_, fun hno => ?_⟩, fun k => ⟨fun h => (ht.slot k).trans (if_pos h),
    fun h => (ht.slot k).trans (if_neg h)⟩, fun k hk => ?_, fun w => ⟨fun h => (ht.window w).trans (if_pos h),
    fun h => (ht.window w).trans (if_neg h)⟩, fun e => ⟨fun h => (ht.entry e).trans (if_pos h),
    fun h => (ht.entry e).trans (if_neg h)⟩, fun e he => ?_, fun h => ⟨fun w => ht.lists h (some w),
    ht.lists h none⟩⟩
  · obtain ⟨⟨hfenced, hbound, hup⟩, hfree⟩ := hroom
    rw [ht.port, if_pos ⟨hfenced, hbound⟩]
    exact if_pos ⟨hup, hfree⟩
  · rw [ht.port]
    split
    · next hbound => exact if_neg fun h => hno ⟨⟨hbound.1, hbound.2, h.1⟩, h.2⟩
    · rfl
  · rw [ht.slot] at hk ⊢
    split at hk
    · next hpends => rw [if_pos hpends, hasAgent_dropAgent, decide_eq_false (not_not_intro rfl), Bool.and_false]
    · next hpends =>
      rw [if_neg hpends, Bool.eq_false_iff]
      exact fun hpending => hpends ⟨hk, hpending⟩
  · rw [ht.entry] at he ⊢
    split at he
    · exact absurd rfl he
    · next hown =>
      rw [if_neg hown]
      exact fun hrequest => hown ⟨he, hrequest⟩

end Sys2Proof.Machine
end

section
/-! SUPPORT. A visit of the purge walk (O35). -/

namespace Sys2Proof.Machine

/-! ## The record visited (R103) -/

/-- `s` with the members of the purge set out of the holder set of the record at the walk's position, unless it is
FREE, and the walk moved on. -/
def State.visited (s : State) : State :=
  { (if (s.window s.walkPosition).state = .free then s else s.dropHolders s.walkPosition s.purgeSet) with
    walkPosition := s.walkPosition + 1 }

/-- A visit takes the record at the walk's position from agent `a`. -/
abbrev State.VisitTakes (s : State) (a : AgentId) : Prop :=
  (s.window s.walkPosition).state ≠ .free ∧ hasAgent s.purgeSet a = true ∧
    hasAgent (s.window s.walkPosition).holders a = true

section
variable {s : State}

theorem visited_of_free (h : (s.window s.walkPosition).state = .free) :
    s.visited = { s with walkPosition := s.walkPosition + 1 } := by
  rw [State.visited, if_pos h]

theorem visited_of_used (h : (s.window s.walkPosition).state ≠ .free) :
    s.visited = { s.dropHolders s.walkPosition s.purgeSet with walkPosition := s.walkPosition + 1 } := by
  rw [State.visited, if_neg h]

theorem visited_only (s : State) : s.visited = { s with
    walkPosition := s.walkPosition + 1, windows := s.visited.windows, agents := s.visited.agents } := by
  by_cases h : (s.window s.walkPosition).state = .free
  · rw [visited_of_free h]
  · rw [visited_of_used h, (dropHolders_changed s s.walkPosition s.purgeSet).only]

theorem visited_window_of_ne {v : WindowId} (hv : v ≠ s.walkPosition) : s.visited.window v = s.window v := by
  by_cases h : (s.window s.walkPosition).state = .free
  · rw [visited_of_free h]
    rfl
  · rw [visited_of_used h]
    exact (dropHolders_changed s s.walkPosition s.purgeSet).others v hv

theorem visited_window (h : (s.window s.walkPosition).state ≠ .free) : s.visited.window s.walkPosition
    = { s.window s.walkPosition with holders := (s.window s.walkPosition).holders &&& ~~~s.purgeSet } := by
  have hset : ((s.dropHolders s.walkPosition s.purgeSet).window s.walkPosition).holders
      = (s.window s.walkPosition).holders &&& ~~~s.purgeSet := agentSet_ext fun a => by
    rw [hasAgent_dropHolders, hasAgent_and_not]
  rw [visited_of_used h, ← hset]
  exact (dropHolders_changed s s.walkPosition s.purgeSet).record

theorem visited_agent (a : AgentId) : s.visited.agent a
    = if s.VisitTakes a then { s.agent a with held := (s.agent a).held - 1 } else s.agent a := by
  by_cases h : (s.window s.walkPosition).state = .free
  · rw [visited_of_free h, if_neg fun hx => hx.1 h]
    rfl
  · rw [visited_of_used h]
    refine (dropHolders_agent s s.walkPosition s.purgeSet a).trans (if_congr ?_ rfl rfl)
    exact (and_iff_right h).symm

theorem visited_state (a : AgentId) : (s.visited.agent a).state = (s.agent a).state := by
  rw [visited_agent]
  split
  · rfl
  · rfl

/-- The visit ends the purges of those whose last holding it takes (R36). -/
theorem mem_visited_nothingHeld (hheld : ∀ a, (s.agent a).state = .purging → (s.agent a).held ≠ 0) (a : AgentId) :
    a ∈ s.visited.nothingHeld ↔ (s.agent a).state = .purging ∧ (s.agent a).held = 1 ∧ s.VisitTakes a := by
  have hmem : a ∈ s.visited.nothingHeld ↔ (s.agent a).state = .purging ∧ (s.visited.agent a).held = 0 := by
    simp [State.nothingHeld, allAgents, visited_state]
  rw [hmem, visited_agent]
  refine and_congr_right fun hpurging => ?_
  have hpos := hheld a hpurging
  split
  · next htakes =>
    refine Iff.trans ?_ (and_iff_left htakes).symm
    dsimp only
    omega
  · next hkeeps => exact iff_of_false hpos fun h => hkeeps h.2

/-! ## The visit (R103, R104) -/

theorem exec_purgeVisit_of_empty (h : Serving s) (hset : s.purgeSet = 0) : exec .purgeVisit s = .next s := by
  show Host.Outcome.next (s.whenServing _) = _
  rw [whenServing_of_serving h, if_pos hset]

theorem exec_purgeVisit_of_set (h : Serving s) (hset : s.purgeSet ≠ 0) :
    exec .purgeVisit s = .next (s.visited.finish none) := by
  show Host.Outcome.next (s.whenServing _) = _
  rw [whenServing_of_serving h, if_neg hset]
  rfl

theorem visited_slot (s : State) (k : SlotId) : s.visited.slot k = s.slot k := by
  rw [visited_only]
  rfl

/-- A visit leaves nothing over but purges whose agents hold nothing. -/
theorem visited_settled (hs : Settled s) (hheld : ∀ a, a ∉ s.visited.nothingHeld) : Settled s.visited := by
  obtain ⟨hemptied, -, hfence, hwait⟩ := hs
  have hengine : s.visited.engine = s.engine := by rw [visited_only]; rfl
  have hlist : s.visited.fenceWait = s.fenceWait := congrArg Engine.fenceWait hengine
  refine ⟨fun k => ?_, fun a ha h0 => hheld a ?_, fun f hf => ?_, ?_⟩
  · rw [State.Emptied, visited_slot]
    exact hemptied k
  · simp [State.nothingHeld, allAgents, ha, h0]
  · rw [visited_state]
    exact hfence f (hlist ▸ hf)
  · rw [slotWait_of_engine hengine, freeSlot_congr (s := s) fun k => by rw [visited_slot]]
    exact hwait

theorem visited_finish (hs : Settled s) : s.visited.finish none = s.visited.purgesEnded [] := by
  obtain ⟨hemptied, -, -, hwait⟩ := hs
  refine finish_of_none_emptied (fun k => ?_) ?_
  · rw [State.Emptied, visited_slot]
    exact hemptied k
  · rw [freeSlot_congr (s := s) fun k => by rw [visited_slot], visited_only]
    exact hwait

end

/-- Settles O35: a visit empties no change, so the claim ends with the purges of those that now hold nothing. -/
theorem purgeVisitRemovesTheSet : Obligations.PurgeVisitRemovesTheSet := by
  refine ⟨fun s hserving hset => exec_purgeVisit_of_empty hserving hset, fun s hserving hset hs => ?_⟩
  intro w loses
  have hexec := exec_purgeVisit_of_set hserving hset
  have hnothing := mem_visited_nothingHeld hs.2.1
  refine ⟨s.visited, visited_only s, fun v hv => visited_window_of_ne hv, fun hfree => ?_, visited_window,
    fun a => ⟨fun h => (visited_agent a).trans (if_pos h), fun h => (visited_agent a).trans (if_neg h)⟩,
    fun hlast => ?_, hnothing, by rw [hexec, visited_finish hs]⟩
  · rw [visited_of_free hfree]
    exact ⟨rfl, rfl⟩
  · have hsettled := visited_settled hs fun a ha => by
      obtain ⟨hpurging, hone, htakes⟩ := (hnothing a).mp ha
      exact hlast a hpurging hone htakes
    rw [hexec, finish_of_settled hsettled]

end Sys2Proof.Machine
end

section
/-! SUPPORT. What an agent's record and the purge set tell of its purge and of what is owed to it, and the
operations that leave all of that as it is. -/

namespace Sys2Proof.Machine

/-! ## Standings -/

/-- The fields of an agent's record that tell of its purge and of what is owed to it (R31), and whether the purge
set lists it (R99). -/
structure Standing where
  state       : AgentState
  target      : Option PurgeTarget
  welcomeOwed : Bool
  fenceOwed   : Bool
  listed      : Bool

def Agent.standing (r : Agent) (listed : Bool) : Standing :=
  ⟨r.state, r.target, r.welcomeOwed, r.fenceOwed, listed⟩

def State.standing (s : State) (a : AgentId) : Standing := (s.agent a).standing (hasAgent s.purgeSet a)

/-- The standings that an agent can have: a PURGING agent alone is listed and has a target, a WELCOME is owed to
agents ACTIVE or on their way there, a FENCE to agents FENCED or on their way there (R31, R37, R38, R99). -/
inductive Standing.Allowed : Standing → Prop
  | absent : Allowed ⟨.absent, none, false, false, false⟩
  | active (welcomeOwed : Bool) : Allowed ⟨.active, none, welcomeOwed, false, false⟩
  | fenced (fenceOwed : Bool) : Allowed ⟨.fenced, none, false, fenceOwed, false⟩
  | towardAbsent : Allowed ⟨.purging, some .absent, false, false, true⟩
  | towardActive (welcomeOwed : Bool) : Allowed ⟨.purging, some .active, welcomeOwed, false, true⟩
  | towardFenced (fenceOwed : Bool) : Allowed ⟨.purging, some .fenced, false, fenceOwed, true⟩

/-- Every agent has a standing that is allowed. -/
def AgentsTracked (s : State) : Prop := ∀ a, (s.standing a).Allowed

theorem allowed_iff (x : Standing) : x.Allowed ↔
    ((x.fenceOwed = true → x.state = .fenced ∨ x.state = .purging ∧ x.target = some .fenced) ∧
      (x.welcomeOwed = true → x.state = .active ∨ x.state = .purging ∧ x.target = some .active)) ∧
    (x.listed = true ↔ x.state = .purging) ∧ (x.state = .purging ↔ x.target.isSome = true) := by
  constructor
  · intro h
    cases h <;> simp
  · obtain ⟨state, target, welcomeOwed, fenceOwed, listed⟩ := x
    rintro ⟨⟨hfence, hwelcome⟩, hlisted, htarget⟩
    dsimp only at hfence hwelcome hlisted htarget
    have hnone : state ≠ .purging → target = none ∧ listed = false := fun hs =>
      ⟨by simpa using htarget.not.mp hs, by simpa using hlisted.not.mpr hs⟩
    cases state with
    | absent =>
      obtain ⟨rfl, rfl⟩ := hnone nofun
      obtain rfl : welcomeOwed = false := by simpa using hwelcome
      obtain rfl : fenceOwed = false := by simpa using hfence
      exact .absent
    | active =>
      obtain ⟨rfl, rfl⟩ := hnone nofun
      obtain rfl : fenceOwed = false := by simpa using hfence
      exact .active welcomeOwed
    | fenced =>
      obtain ⟨rfl, rfl⟩ := hnone nofun
      obtain rfl : welcomeOwed = false := by simpa using hwelcome
      exact .fenced fenceOwed
    | purging =>
      obtain rfl := hlisted.mpr rfl
      obtain ⟨z, rfl⟩ := Option.isSome_iff_exists.mp (htarget.mp rfl)
      cases z with
      | absent =>
        obtain rfl : welcomeOwed = false := by simpa using hwelcome
        obtain rfl : fenceOwed = false := by simpa using hfence
        exact .towardAbsent
      | active =>
        obtain rfl : fenceOwed = false := by simpa using hfence
        exact .towardActive welcomeOwed
      | fenced =>
        obtain rfl : welcomeOwed = false := by simpa using hwelcome
        exact .towardFenced fenceOwed

theorem purgesTracked_iff {s : State} : PurgesTracked s ↔ QuietInWalk s ∧ AgentsTracked s := by
  unfold PurgesTracked OwedKept AgentsTracked
  simp only [allowed_iff, forall_and]
  rfl

theorem tracked_of_standing {s t : State} (ht : t.standing = s.standing) (h : AgentsTracked s) :
    AgentsTracked t := fun a => ht ▸ h a

theorem tracked_of_no_agents {s : State} (ha : s.agents = []) (hset : s.purgeSet = 0) : AgentsTracked s := by
  intro a
  rw [State.standing, State.agent_eq, ha, hset, hasAgent_zero]
  exact .absent

/-- The standings are those of before where the purge set is, and no record changed but in its held count. -/
theorem standing_of_held {s t : State} (hset : t.purgeSet = s.purgeSet)
    (h : ∀ a, t.agent a = { s.agent a with held := (t.agent a).held }) : t.standing = s.standing := by
  funext a
  rw [State.standing, h a, hset]
  rfl

theorem setAgent_standing (s : State) (a b : AgentId) (r : Agent) : (s.setAgent a r).standing b
    = if b = a then r.standing (hasAgent s.purgeSet a) else s.standing b := by
  rw [State.standing, State.setAgent_agent]
  split
  · next hb => rw [hb]; rfl
  · rfl

/-! ## Holder sets, changes left, the pool -/

theorem Quits.standing {a : AgentId} {s t : State} (h : Quits a s t) : t.standing = s.standing := by
  refine standing_of_held (by rw [h.only]) fun b => ?_
  rw [h.agent]
  split
  · next hb => rw [hb]
  · rfl

theorem LeftBy.standing {left : AgentId → WindowId → Bool} {s t : State} (h : LeftBy left s t) :
    t.standing = s.standing :=
  standing_of_held (by rw [h.only]) fun a => by rw [h.agent]

theorem dropHolder_standing (s : State) (w : WindowId) (a : AgentId) :
    (s.dropHolder w a).standing = s.standing := (dropHolder_quits s w a).standing

theorem dropHolders_standing (s : State) (w : WindowId) (x : AgentSet) :
    (s.dropHolders w x).standing = s.standing := foldl_keeps _ _ (fun _ _ => dropHolder_standing _ _ _) _ _

theorem addHolder_standing (s : State) (w : WindowId) (a : AgentId) :
    (s.addHolder w a).standing = s.standing := by
  cases h : hasAgent (s.window w).holders a with
  | true => rw [addHolder_of_holder h]
  | false =>
    rw [addHolder_of_no_holder h]
    funext b
    refine (setAgent_standing _ a b _).trans ?_
    split
    · next hb => rw [hb]; rfl
    · rfl

theorem dropEntries_standing (s : State) (pick : PoolEntry → Bool) :
    (s.dropEntries pick).standing = s.standing := by
  obtain ⟨_, _, _, h⟩ := dropEntries_only_pool s pick
  rw [h]
  rfl

theorem place_standing (s : State) (p : PortId) (m : OutMsg) : (s.place p m).standing = s.standing := by
  rw [place_only_ports]
  rfl

/-! ## Changes that complete, and records posted -/

theorem applyAdd_standing (s : State) (w : WindowId) (c : ContextId) (base : LocalPage) (v : NewValues) :
    (s.applyAdd w c base v).standing = s.standing := by
  rw [← dropHolders_standing s w (s.window w).holders]
  unfold State.applyAdd
  generalize s.dropHolders w (s.window w).holders = t
  rfl

theorem applyClose_standing (s : State) (c : ContextId) : (s.applyClose c).standing = s.standing := by
  have hfree : ∀ (t : State) (w : WindowId), (t.freeRecord w).standing = t.standing := fun _ _ => rfl
  have hfold := foldl_keeps State.standing State.clearWindow
    (fun t w => (hfree _ w).trans (dropHolders_standing t w _)) (s.windowList c) s
  rw [applyClose_eq, ← hfold]
  generalize (s.windowList c).foldl State.clearWindow s = t
  rfl

theorem changeEffect_standing (s : State) (z : ChangeSubject) (v : NewValues) :
    (s.changeEffect z v).standing = s.standing := by
  cases z with
  | modify w => rfl
  | retire w => rfl
  | close c => exact applyClose_standing s c
  | leave c a => exact (leaveHoldings_leftBy s c a).standing

theorem completeSlot_standing (s : State) (k : SlotId) : (s.completeSlot k).1.standing = s.standing :=
  standing_of_held (by rw [completeSlot_only]) (completeSlot_agent s k)

theorem leaveFirst_standing (s : State) (k : SlotId) : (s.leaveFirst k).standing = s.standing := by
  unfold State.leaveFirst
  split
  · split
    · exact (leaveHoldings_leftBy s _ _).standing
    · rfl
    · rfl
    · rfl
  · rfl

theorem completeEmptied_standing (s : State) : s.completeEmptied.1.standing = s.standing := by
  have hleave := foldl_keeps State.standing State.leaveFirst leaveFirst_standing allSlots s
  unfold State.completeEmptied
  generalize allSlots.foldl State.leaveFirst s = t at hleave ⊢
  refine (foldl_keeps (fun x : State × List Completion => x.1.standing) completeIfEmptied (fun x k => ?_)
    allSlots (t, [])).trans hleave
  unfold completeIfEmptied
  split
  · exact completeSlot_standing x.1 k
  · rfl

theorem postAll_standing (s : State) (cs : List Completion) : (s.postAll cs).standing = s.standing := by
  rw [postAll_eq]
  rfl

/-! ## The recall engine and the timers -/

theorem firstRecall_standing (s : State) (kept : Option AgentId) (k : SlotId) (a : AgentId) :
    (s.firstRecall kept k a).standing = s.standing := by
  unfold State.firstRecall
  split
  · exact place_standing s _ _
  · rfl

theorem fillRecords_standing (s : State) (k : SlotId) (z : ChangeSubject) :
    (s.fillRecords k z).standing = s.standing := by
  cases z with
  | modify w => exact dropHolders_standing _ w _
  | retire w => exact dropHolders_standing _ w _
  | close c => rfl
  | leave c a => rfl

theorem fillSlot_standing (s : State) (kept : Option AgentId) (k : SlotId) (z : ChangeSubject) (v : NewValues)
    (tag : Half) : (s.fillSlot kept k z v tag).standing = s.standing :=
  (foldl_keeps State.standing (fun s a => s.firstRecall kept k a) (fun _ _ => firstRecall_standing _ _ _ _)
    _ _).trans (fillRecords_standing { s with serial := s.nextSerial } k z)

theorem takeReminder_standing (s : State) (k : SlotId) : (s.takeReminder k).standing = s.standing := by
  refine foldl_keeps State.standing (fun s a => s.remind k a) (fun t a => ?_) _ _
  unfold State.remind
  split
  · exact place_standing t _ _
  · rfl

theorem lapse_standing (s : State) (k : SlotId) : (s.lapse k).standing = s.standing :=
  standing_of_held (by rw [lapse_only]) (lapse_agent_record s k)

theorem tickSlot_standing (s : State) (k : SlotId) : (s.tickSlot k).standing = s.standing := by
  rw [tickSlot_only_slots]
  rfl

theorem refillSlot_standing (s : State) (p : PortId) (k : SlotId) :
    (s.refillSlot p k).standing = s.standing := by
  unfold State.refillSlot
  split
  · refine foldl_keeps State.standing (fun s a => s.refillRecall p k a) (fun t a => ?_) _ _
    unfold State.refillRecall
    split
    · exact place_standing t p _
    · rfl
  · rfl

/-! ## Grant-part reads, lookups, and entries into UP -/

theorem readGrant_standing (s : State) (d : Detector) (w : WindowId) :
    (s.readGrant d w).1.standing = s.standing := by
  unfold State.readGrant State.spoil
  split
  · rfl
  split
  · rfl
  · rfl
  · split
    · rfl
    · rfl

theorem scrub_standing (s : State) : s.scrub.standing = s.standing :=
  readGrant_standing s .scrub s.scrubPosition

theorem tickScrubber_standing (s : State) : s.tickScrubber.standing = s.standing := by
  unfold State.tickScrubber
  split
  · rfl
  split
  · rfl
  split
  · exact scrub_standing s
  · rfl

theorem tickWalk_standing (s : State) : s.tickWalk.standing = s.standing := by
  unfold State.tickWalk
  split
  · rfl
  · rfl

theorem answerLive_standing (s : State) (p : PortId) (r : Request) (w : WindowId) :
    (s.answerLive p r w).standing = s.standing := by
  have hread := readGrant_standing s .lookup w
  unfold State.answerLive
  dsimp only
  split
  · exact (place_standing _ p _).trans hread
  split
  · exact ((place_standing _ p _).trans (addHolder_standing _ w r.agent)).trans hread
  · exact (place_standing _ p _).trans hread

theorem serve_standing (s : State) (p : PortId) (r : Request) : (s.serve p r).standing = s.standing := by
  unfold State.serve State.park
  dsimp only
  split
  · exact place_standing _ p _
  · split
    · rfl
    · exact place_standing _ p _
  · exact answerLive_standing _ p r _

theorem serveReplay_standing (s : State) (e : EntryId) : (s.serveReplay e).standing = s.standing := by
  unfold State.serveReplay
  dsimp only
  split
  · exact place_standing _ _ _
  · rfl
  · exact answerLive_standing _ _ _ _

theorem enterUp_standing (s : State) (p : PortId) : (s.enterUp p).standing = s.standing := by
  refine foldl_keeps State.standing (fun s a => s.announceFence p a) (fun t a => ?_) _ _
  unfold State.announceFence
  dsimp only
  split
  · exact place_standing t p _
  · rfl

/-! ## The command engine and the registers -/

theorem openContext_standing (s : State) (r : CmdRecord) : (s.openContext r).standing = s.standing := by
  unfold State.openContext
  split
  · rfl
  split
  · rfl
  split
  · rfl
  · rfl

theorem joinContext_standing (s : State) (r : CmdRecord) : (s.joinContext r).standing = s.standing := by
  unfold State.joinContext
  split
  · rfl
  split
  · rfl
  split
  · rfl
  · rfl

theorem addChecked_standing (s : State) (r : CmdRecord) (c : ContextId) (v : NewValues) :
    (s.addChecked r c v).standing = s.standing := by
  unfold State.addChecked
  dsimp only
  split
  · rfl
  split
  · rfl
  split
  · rfl
  split
  · rfl
  · next w _ => exact applyAdd_standing s.takeCommand w c (localBaseOperand r) v

theorem addWindow_standing (s : State) (r : CmdRecord) : (s.addWindow r).standing = s.standing := by
  unfold State.addWindow
  split
  · split
    · exact addChecked_standing s r _ _
    · rfl
  · rfl

theorem queryWindow_standing (s : State) (r : CmdRecord) : (s.queryWindow r).standing = s.standing := by
  unfold State.queryWindow
  split
  · rfl
  · exact readGrant_standing s.takeCommand .query _

theorem queryAgent_standing (s : State) (r : CmdRecord) : (s.queryAgent r).standing = s.standing := by
  unfold State.queryAgent
  split
  · rfl
  · rfl

theorem queryContext_standing (s : State) (r : CmdRecord) : (s.queryContext r).standing = s.standing := by
  unfold State.queryContext
  split
  · rfl
  · rfl

theorem enablePort_standing (s : State) (r : CmdRecord) : (s.enablePort r).standing = s.standing := by
  have htraining : ∀ (t : State) (p : PortId), (t.enterTraining p).standing = t.standing := fun _ _ => rfl
  have hposted : ∀ (t : State) (p : PortId), (t.postPort r p).standing = t.standing := fun _ _ => rfl
  unfold State.enablePort
  split
  · rfl
  · next p _ =>
    split
    · exact (hposted _ p).trans (htraining s.takeCommand p)
    · rfl

theorem stage_standing (s : State) (value : Word) : (s.stage value).standing = s.standing := by
  unfold State.stage
  split
  · rfl
  · rfl

theorem postCommand_standing (s : State) : s.postCommand.standing = s.standing := by
  unfold State.postCommand
  split
  · rfl
  · rfl

theorem readCompletion_standing (s : State) : s.readCompletion.standing = s.standing := by
  unfold State.readCompletion
  split
  · rfl
  · rfl

theorem popCompletion_standing (s : State) : s.popCompletion.standing = s.standing := by
  unfold State.popCompletion
  split
  · rfl
  · rfl

end Sys2Proof.Machine
end

section
/-! SUPPORT. The purges of the agents through every claim: the purge set is kept the set of PURGING agents, with what
is owed to each within its state (O56). -/

namespace Sys2Proof.Machine

/-! ## How a standing changes (R33 to R40) -/

namespace Standing.Allowed

variable {x : Standing}

/-- A FENCE owed is placed or dropped (R37). -/
theorem fencePaid (h : x.Allowed) : Allowed { x with fenceOwed := false } := by
  cases h with
  | absent => exact .absent
  | active w => exact .active w
  | fenced f => exact .fenced false
  | towardAbsent => exact .towardAbsent
  | towardActive w => exact .towardActive w
  | towardFenced f => exact .towardFenced false

/-- A WELCOME owed is placed (R37). -/
theorem welcomePaid (h : x.Allowed) : Allowed { x with welcomeOwed := false } := by
  cases h with
  | absent => exact .absent
  | active w => exact .active false
  | fenced f => exact .fenced f
  | towardAbsent => exact .towardAbsent
  | towardActive w => exact .towardActive false
  | towardFenced f => exact .towardFenced f

theorem hello (h : x.Allowed) (hs : x.state = .absent) : Allowed { x with state := .active } := by
  cases h with
  | absent => exact .active false
  | _ => cases hs

theorem fencedAtOnce (h : x.Allowed) (hs : x.state = .absent) : Allowed { x with state := .fenced } := by
  cases h with
  | absent => exact .fenced false
  | _ => cases hs

theorem unfenced (h : x.Allowed) (hs : x.state = .fenced) :
    Allowed { x with state := .absent, fenceOwed := false } := by
  cases h with
  | fenced f => exact .absent
  | _ => cases hs

/-- A purge starts: a FENCE can be owed toward FENCED alone, as none was owed before (R101, R38). -/
theorem purgeStarts (h : x.Allowed) (hs : x.state = .active) {target : PurgeTarget} {fenceOwed : Bool}
    (hf : fenceOwed = true → x.fenceOwed = true ∨ target = .fenced) :
    Allowed ⟨.purging, some target, decide (target = .active), fenceOwed, true⟩ := by
  cases h with
  | active w =>
    cases target with
    | fenced => exact .towardFenced fenceOwed
    | active =>
      obtain rfl : fenceOwed = false := by simpa using hf
      exact .towardActive true
    | absent =>
      obtain rfl : fenceOwed = false := by simpa using hf
      exact .towardAbsent
  | _ => cases hs

theorem turnsToActive (h : x.Allowed) (ht : x.target = some .absent) :
    Allowed { x with target := some .active, welcomeOwed := true } := by
  cases h with
  | towardAbsent => exact .towardActive true
  | _ => cases ht

theorem turnsToAbsent (h : x.Allowed) (ht : x.target = some .active) :
    Allowed { x with target := some .absent, welcomeOwed := false } := by
  cases h with
  | towardActive w => exact .towardAbsent
  | _ => cases ht

theorem turnsToFenced (h : x.Allowed) (hs : x.state = .purging) (fenceOwed : Bool) :
    Allowed { x with target := some .fenced, welcomeOwed := false, fenceOwed := fenceOwed } := by
  cases h with
  | towardAbsent | towardActive w | towardFenced f => cases hs; exact .towardFenced fenceOwed
  | _ => cases hs

theorem reachesActive (h : x.Allowed) (ht : x.target = some .active) :
    Allowed { x with state := .active, target := none, listed := false } := by
  cases h with
  | towardActive w => exact .active w
  | _ => cases ht

theorem reachesAbsent (h : x.Allowed) (ht : x.target = some .absent) :
    Allowed { x with state := .absent, target := none, welcomeOwed := false, listed := false } := by
  cases h with
  | towardAbsent => exact .absent
  | _ => cases ht

theorem reachesFenced (h : x.Allowed) (ht : x.target = some .fenced) :
    Allowed { x with state := .fenced, target := none, listed := false } := by
  cases h with
  | towardFenced f => exact .fenced f
  | _ => cases ht

theorem has_target (h : x.Allowed) (hs : x.state = .purging) : x.target ≠ none := by
  cases h with
  | towardAbsent | towardActive w | towardFenced f => exact nofun
  | _ => cases hs

end Standing.Allowed

section
variable {s : State}

/-! ## Records written, purges started and ended -/

theorem setAgent_tracked (h : AgentsTracked s) {a : AgentId} {r : Agent}
    (hr : (r.standing (hasAgent s.purgeSet a)).Allowed) : AgentsTracked (s.setAgent a r) := fun b => by
  rw [setAgent_standing]
  split
  · exact hr
  · exact h b

theorem PurgeStarted.standing {a : AgentId} {target : PurgeTarget} {t : State} (h : PurgeStarted a target s t)
    (b : AgentId) : t.standing b = if b = a
      then ⟨.purging, some target, decide (target = .active), (t.agent a).fenceOwed, true⟩
      else s.standing b := by
  have hset : t.purgeSet = addAgent s.purgeSet a := by rw [h.only]
  rw [State.standing, h.agent, hset, hasAgent_addAgent]
  by_cases hb : b = a
  · rw [if_pos hb, if_pos hb, decide_eq_true hb, Bool.or_true]
    rfl
  · rw [if_neg hb, if_neg hb, decide_eq_false hb, Bool.or_false]
    rfl

theorem purgeStart_tracked (h : AgentsTracked s) {a : AgentId} (ha : (s.agent a).state = .active)
    (target : PurgeTarget) : AgentsTracked (s.purgeStart a target) := fun b => by
  have hstart := purgeStart_started s a target
  rw [hstart.standing]
  split
  · exact (h a).purgeStarts ha fun hf => (hstart.owed.mp hf).imp_right fun ⟨_, ⟨ht, _⟩, _⟩ => ht
  · exact h b

theorem sendFence_standing (s : State) (a b : AgentId) : (s.sendFence a).standing b = if b = a
    then { s.standing a with fenceOwed := ((s.sendFence a).agent a).fenceOwed } else s.standing b := by
  have hset : (s.sendFence a).purgeSet = s.purgeSet := by rw [sendFence_only]
  rw [State.standing, sendFence_agent, hset]
  split
  · next hb => rw [hb]; rfl
  · rfl

theorem fence_tracked (h : AgentsTracked s) (a : AgentId) : AgentsTracked (s.fence a) := by
  unfold State.fence
  dsimp only
  split
  · next hactive => exact purgeStart_tracked h hactive _
  · next hpurging =>
    split
    · exact h
    · intro b
      rw [sendFence_standing, setAgent_standing, setAgent_standing, if_pos rfl]
      by_cases hb : b = a
      · rw [if_pos hb]
        exact (h a).turnsToFenced hpurging _
      · rw [if_neg hb, if_neg hb]
        exact h b
  · next habsent => exact setAgent_tracked h ((h a).fencedAtOnce habsent)
  · exact h

theorem depart_tracked (h : AgentsTracked s) (a : AgentId) : AgentsTracked (s.depart a) := by
  unfold State.depart
  dsimp only
  split
  · next hactive => exact purgeStart_tracked h hactive _
  · split
    · next htarget => exact setAgent_tracked h ((h a).turnsToAbsent htarget)
    · exact h
  · exact h
  · exact h

theorem losePorts_tracked (h : AgentsTracked s) (p : PortId) : AgentsTracked (s.losePorts p) := by
  refine foldl_invariant AgentsTracked _ (fun t a ht => ?_) allAgents s h
  unfold State.losePort
  split
  · have hdepart := depart_tracked ht a
    exact setAgent_tracked hdepart (hdepart a).fencePaid
  · exact ht

/-- An agent out of the purge set has the standing that its record gives it unlisted. -/
theorem unlisted_standing (s : State) (a b : AgentId) :
    ({ s with purgeSet := dropAgent s.purgeSet a } : State).standing b
      = if b = a then { s.standing a with listed := false } else s.standing b := by
  show (s.agent b).standing (hasAgent (dropAgent s.purgeSet a) b) = _
  rw [hasAgent_dropAgent]
  by_cases hb : b = a
  · rw [if_pos hb, hb, decide_eq_false (not_not_intro rfl), Bool.and_false]
    rfl
  · rw [if_neg hb, decide_eq_true hb, Bool.and_true]
    rfl

/-- The record that a purge leaves is one of an agent out of the purge set. -/
theorem reachTarget_standing (h : AgentsTracked s) (kept : Option AgentId) {a : AgentId}
    (ha : (s.agent a).state = .purging) : ∃ r : Agent,
      (s.reachTarget kept a).standing = (s.setAgent a r).standing ∧ (r.standing false).Allowed := by
  unfold State.reachTarget
  dsimp only
  split
  · next htarget =>
    split
    · exact ⟨_, place_standing _ _ _, ((h a).reachesActive htarget).welcomePaid⟩
    · exact ⟨_, rfl, (h a).reachesActive htarget⟩
  · next htarget => exact ⟨_, rfl, (h a).reachesAbsent htarget⟩
  · next htarget => exact ⟨_, rfl, (h a).reachesFenced htarget⟩
  · next htarget => exact absurd htarget ((h a).has_target ha)

theorem endPurges_tracked (h : AgentsTracked s) (kept : Option AgentId) : AgentsTracked (s.endPurges kept) := by
  refine foldl_invariant AgentsTracked _ (fun t a ht => ?_) allAgents s h
  unfold State.endPurge
  split
  · next hover =>
    obtain ⟨r, hr, hallowed⟩ := reachTarget_standing ht kept hover.1
    intro b
    dsimp only
    rw [unlisted_standing, hr, setAgent_standing, setAgent_standing, if_pos rfl]
    by_cases hb : b = a
    · rw [if_pos hb]
      exact hallowed
    · rw [if_neg hb, if_neg hb]
      exact ht b
  · exact ht

/-! ## The end of a claim (R91, R141) -/

theorem settle_tracked (h : AgentsTracked s) (kept : Option AgentId) (late : Bool) :
    AgentsTracked (s.settle kept late) := by
  have hended := endPurges_tracked (tracked_of_standing (completeEmptied_standing s) h) kept
  have hcleared : ∀ t : State, t.clearFences.standing = t.standing := fun _ => rfl
  exact tracked_of_standing ((postAll_standing _ _).trans (hcleared _)) hended

theorem carryOut_tracked (h : AgentsTracked s) (kept : Option AgentId) (late : Bool) (r : CmdRecord)
    (j : Judgement) : AgentsTracked (s.carryOut kept late r j) := by
  have htake : AgentsTracked s.takeCommand := h
  cases j with
  | refused status => exact htake
  | immediate z v => exact tracked_of_standing (changeEffect_standing s.takeCommand z v) htake
  | needsSlot z v =>
    unfold State.carryOut
    dsimp only
    split
    · exact h
    · exact settle_tracked (tracked_of_standing (fillSlot_standing s.takeCommand kept _ z v _) htake) kept late

theorem reconsider_tracked (h : AgentsTracked s) (kept : Option AgentId) : AgentsTracked (s.reconsider kept) := by
  unfold State.reconsider
  split
  · split
    · exact carryOut_tracked h kept true _ _
    · exact h
  · exact h

theorem finish_tracked (h : AgentsTracked s) (caller : Option AgentId) : AgentsTracked (s.finish caller) := by
  unfold State.finish
  exact reconsider_tracked (settle_tracked h _ false) _

/-! ## The links -/

theorem enterReinit_tracked (h : AgentsTracked s) (p : PortId) (d : Destination) :
    AgentsTracked (s.enterReinit p d) := by
  have hdiscard : AgentsTracked (s.discardLink p d) := h
  exact finish_tracked (losePorts_tracked (tracked_of_standing (dropEntries_standing _ _) hdiscard) p) none

theorem violation_tracked (h : AgentsTracked s) (p : PortId) (kind : Violation) :
    AgentsTracked (s.violation p kind) :=
  enterReinit_tracked (s := { s with linkBank := recordLink s.linkBank p kind }) h p .training

theorem receive_tracked (h : AgentsTracked s) (p : PortId) (f : Frame) : AgentsTracked (s.receive p f) := by
  have hviolation := violation_tracked h p
  unfold State.receive
  split
  · split
    · exact hviolation _
    · unfold State.receiveReady
      dsimp only
      split
      · split
        · exact tracked_of_standing (enterUp_standing _ p) h
        · exact h
      · exact hviolation _
    · unfold State.receiveCredit
      dsimp only
      split
      · exact hviolation _
      · split
        · exact h
        · exact hviolation _
    · unfold State.receiveReinit
      dsimp only
      split
      · exact enterReinit_tracked h p _
      · exact h
    · unfold State.receiveAgent
      dsimp only
      split
      · split
        · exact hviolation _
        · exact h
      · exact hviolation _
  · exact h

theorem refillOwed_tracked (h : AgentsTracked s) (p : PortId) (a : AgentId) :
    AgentsTracked (s.refillOwed p a) := by
  unfold State.refillOwed
  dsimp only
  split
  · split
    · exact tracked_of_standing (place_standing _ p _) (setAgent_tracked h (h a).welcomePaid)
    · split
      · exact tracked_of_standing (place_standing _ p _) (setAgent_tracked h (h a).fencePaid)
      · exact h
  · exact h

/-! ## Messages of agents -/

theorem takeHello_tracked (h : AgentsTracked s) (p : PortId) (a : AgentId) : AgentsTracked (s.takeHello p a) := by
  have htold : AgentsTracked
      ((s.setAgent a { s.agent a with port := some p, fenceOwed := false }).place p (.welcome a .fenced)) :=
    tracked_of_standing (place_standing _ p _) (setAgent_tracked h (h a).fencePaid)
  unfold State.takeHello
  dsimp only
  split
  · next habsent =>
    exact tracked_of_standing (place_standing _ p _) (setAgent_tracked h ((h a).hello habsent))
  split
  · exact htold
  split
  · exact tracked_of_standing (place_standing s p _) h
  split
  · next hactive => exact finish_tracked (purgeStart_tracked h hactive _) _
  split
  · exact htold
  split
  · exact htold
  split
  · next htarget => exact setAgent_tracked h ((h a).turnsToActive htarget)
  · exact h

theorem takeGoodbye_tracked (h : AgentsTracked s) (p : PortId) (a : AgentId) :
    AgentsTracked (s.takeGoodbye p a) := by
  unfold State.takeGoodbye
  split
  · exact finish_tracked (depart_tracked h a) none
  · exact h

theorem takeRelease_tracked (h : AgentsTracked s) (p : PortId) (a : AgentId) (w : WindowId) (version : Half) :
    AgentsTracked (s.takeRelease p a w version) := by
  have hdrop := tracked_of_standing (dropHolder_standing s w a) h
  unfold State.takeRelease
  dsimp only
  split
  · split
    · exact finish_tracked (s := (s.dropHolder w a).dropPending _ a) hdrop none
    · exact finish_tracked hdrop none
  · exact h

theorem takeAck_tracked (h : AgentsTracked s) (p : PortId) (a : AgentId) (serial : Half) :
    AgentsTracked (s.takeAck p a serial) := by
  unfold State.takeAck
  split
  · exact finish_tracked (tracked_of_standing (dropAnswer_quits s _ a).standing h) none
  · exact h

/-! ## The timers -/

theorem timeOut_tracked (h : AgentsTracked s) (k : SlotId) : AgentsTracked (s.timeOut k) :=
  finish_tracked (foldl_invariant AgentsTracked _ (fun _ a ht => fence_tracked ht a) _ _
    (tracked_of_standing (lapse_standing s k) h)) none

theorem takeDue_tracked (h : AgentsTracked s) (k : SlotId) : AgentsTracked (s.takeDue k) := by
  unfold State.takeDue
  split
  · exact h
  · exact tracked_of_standing (takeReminder_standing s k) h
  · exact timeOut_tracked h k

/-- The walk ends with no agent known, and its purge set is empty already (R23, R109). -/
theorem endWalk_tracked (hq : QuietInWalk s) (hi : s.init = true) : AgentsTracked s.endWalk := by
  obtain ⟨-, -, -, -, -, -, -, -, hset, -⟩ := hq hi
  exact tracked_of_no_agents rfl hset

theorem ticked_tracked (hq : QuietInWalk s) (h : AgentsTracked s) : AgentsTracked s.ticked := by
  have hcatch : AgentsTracked s.catchUp := by
    unfold State.catchUp
    split
    · next hi =>
      split
      · exact endWalk_tracked hq hi
      · exact h
    · exact foldl_invariant AgentsTracked State.takeDue (fun _ k ht => takeDue_tracked ht k) allSlots s h
  have hslots : ∀ t : State, (allSlots.foldl State.tickSlot t).standing = t.standing :=
    foldl_keeps State.standing State.tickSlot tickSlot_standing allSlots
  exact tracked_of_standing (((tickWalk_standing _).trans (tickScrubber_standing _)).trans (hslots _)) hcatch

/-! ## Commands of the command engine, and the registers -/

theorem fenceAgent_tracked (h : AgentsTracked s) (r : CmdRecord) : AgentsTracked (s.fenceAgent r) := by
  unfold State.fenceAgent
  dsimp only
  split
  · exact h
  split
  · exact fence_tracked (s := s.takeCommand) h _
  · next a _ _ =>
    have hwait : AgentsTracked { s.takeCommand with fenceWait := s.fenceWait ++ [⟨recordTag r, a⟩] } := h
    exact finish_tracked (fence_tracked hwait a) none

theorem unfenceAgent_tracked (h : AgentsTracked s) (r : CmdRecord) : AgentsTracked (s.unfenceAgent r) := by
  have htake : AgentsTracked s.takeCommand := h
  have hposted : ∀ (t : State) (c : Completion), AgentsTracked t → AgentsTracked (t.post c) := fun _ _ ht => ht
  unfold State.unfenceAgent
  dsimp only
  split
  · exact h
  split
  · next a _ hfenced =>
    refine hposted _ _ ?_
    split
    · exact tracked_of_standing (place_standing _ _ _) (setAgent_tracked htake ((h a).unfenced hfenced))
    · exact setAgent_tracked htake ((h a).unfenced hfenced)
  · exact h

theorem disablePort_tracked (h : AgentsTracked s) (r : CmdRecord) : AgentsTracked (s.disablePort r) := by
  have hposted : ∀ (t : State) (p : PortId), AgentsTracked t → AgentsTracked (t.postPort r p) := fun _ _ ht => ht
  have htake : AgentsTracked s.takeCommand := h
  unfold State.disablePort
  split
  · exact h
  · refine hposted _ _ ?_
    unfold State.disableLink
    split
    · exact enterReinit_tracked htake _ _
    · exact enterReinit_tracked htake _ _
    · exact h
    · exact h

theorem resetPort_tracked (h : AgentsTracked s) (r : CmdRecord) : AgentsTracked (s.resetPort r) := by
  have hposted : ∀ (t : State) (p : PortId), AgentsTracked t → AgentsTracked (t.postPort r p) := fun _ _ ht => ht
  unfold State.resetPort
  split
  · exact h
  split
  · exact hposted _ _ (enterReinit_tracked (s := s.takeCommand) h _ _)
  · exact h

/-- A soft reset leaves no agent known and the purge set empty (R138, R109). -/
theorem softReset_tracked (s : State) : AgentsTracked s.softReset := by
  have hports : ∀ t : State, (allPorts.foldl State.softResetPort t).purgeSet = t.purgeSet :=
    foldl_keeps State.purgeSet State.softResetPort (fun t p => by
      unfold State.softResetPort
      split
      · rfl
      · rfl) allPorts
  have hbegin : ∀ t : State, t.purgeSet = 0 → AgentsTracked t.beginWalk := fun _ ht => tracked_of_no_agents rfl ht
  unfold State.softReset
  exact hbegin _ (hports _)

theorem writeRegister_tracked (h : AgentsTracked s) (offset : BitVec 8) (value : Word) :
    AgentsTracked (s.writeRegister offset value) := by
  unfold State.writeRegister
  split
  · split
    · exact softReset_tracked s
    · exact h
  · exact h
  · exact h
  · exact tracked_of_standing (stage_standing s value) h
  · exact tracked_of_standing (postCommand_standing s) h
  · exact tracked_of_standing (popCompletion_standing s) h
  · exact h
  · exact h
  · exact h
  · exact h

theorem takeHead_tracked {f : CmdRecord → State → State} (kind : Option CommandKind)
    (hf : ∀ r, AgentsTracked s → AgentsTracked (f r s)) (h : AgentsTracked s) :
    AgentsTracked (s.takeHead kind f) := by
  refine whenServing_keeps (fun h => ?_) h
  split
  · exact hf _ h
  · exact h

end

end Sys2Proof.Machine
end

section
/-! SUPPORT. The purges of the agents, through every command and every step (O56). -/

namespace Sys2Proof.Machine

section
variable (s : State)

/-! ## Links, messages and lookups -/

theorem execHello_tracked (p : PortId) : AnswersBy (Keeps AgentsTracked) s (execHello p s) := by
  refine ⟨_, rfl, whenServing_keeps fun h => ?_⟩
  split
  · split
    · exact takeHello_tracked (s := s.takeInbound p) h p _
    · exact h
  · exact h

theorem execGoodbye_tracked (p : PortId) : AnswersBy (Keeps AgentsTracked) s (execGoodbye p s) := by
  refine ⟨_, rfl, whenServing_keeps fun h => ?_⟩
  split
  · exact takeGoodbye_tracked (s := s.takeInbound p) h p _
  · exact h

theorem execRelease_tracked (p : PortId) : AnswersBy (Keeps AgentsTracked) s (execRelease p s) := by
  refine ⟨_, rfl, whenServing_keeps fun h => ?_⟩
  split
  · exact takeRelease_tracked (s := s.takeInbound p) h p _ _ _
  · exact h

theorem execRecallAck_tracked (p : PortId) : AnswersBy (Keeps AgentsTracked) s (execRecallAck p s) := by
  refine ⟨_, rfl, whenServing_keeps fun h => ?_⟩
  split
  · exact takeAck_tracked (s := s.takeInbound p) h p _ _
  · exact h

theorem execLookup_tracked : AnswersBy (Keeps AgentsTracked) s (execLookup s) := by
  refine ⟨_, rfl, whenServing_keeps fun h => ?_⟩
  split
  · split
    · exact tracked_of_standing (serve_standing s _ _) h
    · exact h
  · exact h

theorem execReplay_tracked : AnswersBy (Keeps AgentsTracked) s (execReplay s) := by
  refine ⟨_, rfl, whenServing_keeps fun h => ?_⟩
  split
  · exact tracked_of_standing (serveReplay_standing s _) h
  · exact h

theorem execReadyDeparture_tracked (p : PortId) :
    AnswersBy (Keeps AgentsTracked) s (execReadyDeparture p s) := by
  refine ⟨_, rfl, whenServing_keeps fun h => ?_⟩
  dsimp only
  split
  · split
    · exact tracked_of_standing (enterUp_standing (s.setLane p readyFrame) p) h
    · exact h
  · exact h

theorem execReinitDeparture_tracked (p : PortId) :
    AnswersBy (Keeps AgentsTracked) s (execReinitDeparture p s) := by
  refine ⟨_, rfl, whenReleased_keeps fun h => ?_⟩
  dsimp only
  split
  · split
    · exact h
    · exact h
  · exact h

theorem execCreditDeparture_tracked (p : PortId) :
    AnswersBy (Keeps AgentsTracked) s (execCreditDeparture p s) := by
  refine ⟨_, rfl, whenReleased_keeps fun h => ?_⟩
  dsimp only
  split
  · exact h
  · exact h

theorem execOutboundDeparture_tracked (p : PortId) :
    AnswersBy (Keeps AgentsTracked) s (execOutboundDeparture p s) := by
  refine ⟨_, rfl, whenReleased_keeps fun h => ?_⟩
  dsimp only
  split
  · exact h
  · split
    · exact h
    · exact h

theorem execRefill_tracked (p : PortId) : AnswersBy (Keeps AgentsTracked) s (execRefill p s) := by
  have hslots : ∀ t : State, (allSlots.foldl (fun s k => s.refillSlot p k) t).standing = t.standing :=
    foldl_keeps State.standing (fun s k => s.refillSlot p k) (fun t k => refillSlot_standing t p k) allSlots
  exact ⟨_, rfl, whenServing_keeps fun h => tracked_of_standing (hslots _)
    (foldl_invariant AgentsTracked _ (fun _ a ht => refillOwed_tracked ht p a) allAgents s h)⟩

/-! ## Timers and the purge walk -/

theorem execRecallReminder_tracked (k : SlotId) :
    AnswersBy (Keeps AgentsTracked) s (execRecallReminder k s) := by
  refine ⟨_, rfl, whenServing_keeps fun h => ?_⟩
  split
  · exact tracked_of_standing (takeReminder_standing s k) h
  · exact h

theorem execRecallTimeout_tracked (k : SlotId) :
    AnswersBy (Keeps AgentsTracked) s (execRecallTimeout k s) := by
  refine ⟨_, rfl, whenServing_keeps fun h => ?_⟩
  split
  · exact timeOut_tracked h k
  · exact h

theorem execScrubRead_tracked : AnswersBy (Keeps AgentsTracked) s (execScrubRead s) := by
  have hahead : ∀ t : State, ({ t with scrubAhead := true } : State).standing = t.standing := fun _ => rfl
  refine ⟨_, rfl, whenServing_keeps fun h => ?_⟩
  split
  · exact tracked_of_standing ((hahead s.scrub).trans (scrub_standing s)) h
  · exact h

theorem visited_standing : s.visited.standing = s.standing :=
  standing_of_held (by rw [visited_only]) fun a => by
    rw [visited_agent]
    split
    · rfl
    · rfl

theorem execPurgeVisit_tracked : AnswersBy (Keeps AgentsTracked) s (execPurgeVisit s) := by
  refine ⟨_, rfl, whenServing_keeps fun h => ?_⟩
  split
  · exact h
  · exact finish_tracked (tracked_of_standing (visited_standing s) h) none

/-! ## Every command -/

/-- A command that reaches no agent's standing but by the operations above; the walk's end and a tick read that the
directory is quiet in the walk (R23). -/
theorem exec_tracked (hq : QuietInWalk s) (c : Instr) : AnswersBy (Keeps AgentsTracked) s (exec c s) := by
  have hcarry : ∀ (j : CmdRecord → Judgement) (r : CmdRecord), AgentsTracked s →
      AgentsTracked (s.carryOut none false r (j r)) := fun j r h => carryOut_tracked h none false r (j r)
  cases c with
  | resetNAssert => exact ⟨_, rfl, fun h => h⟩
  | resetNRelease =>
    refine ⟨_, rfl, fun h => ?_⟩
    split
    · exact tracked_of_no_agents rfl rfl
    · exact h
  | initWalkEnd =>
    refine ⟨_, rfl, whenReleased_keeps fun h => ?_⟩
    split
    · next hi => exact endWalk_tracked hq hi
    · exact h
  | softReset value =>
    refine ⟨_, rfl, whenReleased_keeps fun h => ?_⟩
    split
    · exact softReset_tracked s
    · exact h
  | timebaseTick => exact ⟨_, rfl, whenReleased_keeps (ticked_tracked hq)⟩
  | storedError w bit => exact ⟨_, rfl, fun h => h⟩
  | readyReceived p f => exact ⟨_, rfl, whenReleased_keeps fun h => receive_tracked h p f⟩
  | creditReceived p f => exact ⟨_, rfl, whenReleased_keeps fun h => receive_tracked h p f⟩
  | reinitReceived p f => exact ⟨_, rfl, whenReleased_keeps fun h => receive_tracked h p f⟩
  | agentMessageArrival p f => exact ⟨_, rfl, whenReleased_keeps fun h => receive_tracked h p f⟩
  | hello p => exact execHello_tracked s p
  | goodbye p => exact execGoodbye_tracked s p
  | release p => exact execRelease_tracked s p
  | recallAck p => exact execRecallAck_tracked s p
  | lookup => exact execLookup_tracked s
  | replay => exact execReplay_tracked s
  | readyDeparture p => exact execReadyDeparture_tracked s p
  | reinitDeparture p => exact execReinitDeparture_tracked s p
  | creditDeparture p => exact execCreditDeparture_tracked s p
  | outboundDeparture p => exact execOutboundDeparture_tracked s p
  | refill p => exact execRefill_tracked s p
  | recallReminder k => exact execRecallReminder_tracked s k
  | recallTimeout k => exact execRecallTimeout_tracked s k
  | scrubRead => exact execScrubRead_tracked s
  | purgeVisit => exact execPurgeVisit_tracked s
  | badCommand => exact ⟨_, rfl, takeHead_tracked _ fun _ h => h⟩
  | openContext => exact ⟨_, rfl, takeHead_tracked _ fun r => tracked_of_standing (openContext_standing s r)⟩
  | closeContext => exact ⟨_, rfl, takeHead_tracked _ (hcarry (judgeClose s))⟩
  | join => exact ⟨_, rfl, takeHead_tracked _ fun r => tracked_of_standing (joinContext_standing s r)⟩
  | leave => exact ⟨_, rfl, takeHead_tracked _ (hcarry (judgeLeave s))⟩
  | addWindow => exact ⟨_, rfl, takeHead_tracked _ fun r => tracked_of_standing (addWindow_standing s r)⟩
  | modifyWindow => exact ⟨_, rfl, takeHead_tracked _ (hcarry (judgeModify s))⟩
  | retireWindow => exact ⟨_, rfl, takeHead_tracked _ (hcarry (judgeRetire s))⟩
  | fenceAgent => exact ⟨_, rfl, takeHead_tracked _ fun r h => fenceAgent_tracked h r⟩
  | unfenceAgent => exact ⟨_, rfl, takeHead_tracked _ fun r h => unfenceAgent_tracked h r⟩
  | queryWindow => exact ⟨_, rfl, takeHead_tracked _ fun r => tracked_of_standing (queryWindow_standing s r)⟩
  | queryAgent => exact ⟨_, rfl, takeHead_tracked _ fun r => tracked_of_standing (queryAgent_standing s r)⟩
  | queryContext => exact ⟨_, rfl, takeHead_tracked _ fun r => tracked_of_standing (queryContext_standing s r)⟩
  | portEnable => exact ⟨_, rfl, takeHead_tracked _ fun r => tracked_of_standing (enablePort_standing s r)⟩
  | portDisable => exact ⟨_, rfl, takeHead_tracked _ fun r h => disablePort_tracked h r⟩
  | portReset => exact ⟨_, rfl, takeHead_tracked _ fun r h => resetPort_tracked h r⟩
  | cmdWordWrite value => exact ⟨_, rfl, whenReleased_keeps (tracked_of_standing (stage_standing s value))⟩
  | cmdPost value => exact ⟨_, rfl, whenReleased_keeps (tracked_of_standing (postCommand_standing s))⟩
  | cplWordRead =>
    refine ⟨_, rfl, fun h => ?_⟩
    split
    · exact h
    · exact tracked_of_standing (readCompletion_standing s) h
  | cplPop value => exact ⟨_, rfl, whenReleased_keeps (tracked_of_standing (popCompletion_standing s))⟩
  | attnCauseWrite value => exact ⟨_, rfl, whenReleased_keeps fun h => h⟩
  | attnEnableWrite value => exact ⟨_, rfl, whenReleased_keeps fun h => h⟩
  | recallLimitWrite value => exact ⟨_, rfl, whenReleased_keeps fun h => h⟩
  | scrubIntervalWrite value => exact ⟨_, rfl, whenReleased_keeps fun h => h⟩
  | faultClear value => exact ⟨_, rfl, whenReleased_keeps fun h => h⟩
  | registerWriteIgnored offset value =>
    exact ⟨_, rfl, whenReleased_keeps fun h => writeRegister_tracked h offset value⟩

end

/-- Settles O56: every claim gives each agent an allowed standing again, a purge start as one update of the record
and the purge set; and the directory is quiet in the walk, so that its end forgets no purge. -/
theorem stepKeepsPurgesTracked : Obligations.StepKeepsPurgesTracked := by
  intro s t h hstep
  refine step_keeps_of_exec (P := PurgesTracked) (fun _ _ h => h) (fun c s => ?_) h hstep
  obtain ⟨t, ht, hquiet⟩ := exec_quiet c s
  refine ⟨t, ht, fun h => ?_⟩
  obtain ⟨hq, htracked⟩ := purgesTracked_iff.mp h
  obtain ⟨u, hu, hkeeps⟩ := exec_tracked s hq c
  rw [ht] at hu
  cases hu
  exact purgesTracked_iff.mpr ⟨hquiet hq, hkeeps htracked⟩

end Sys2Proof.Machine
end

section
/-! SUPPORT. What messages offered leave of the ports: every shared operation but a frame's reception, a port's
change of state and a departure reaches the ports by placements alone. -/

namespace Sys2Proof.Machine

/-! ## Messages offered (R122) -/

/-- Each port of `t` is that of `s` after some messages were offered to it. -/
def Mailed (s t : State) : Prop := ∀ p, ∃ l : List OutMsg, t.port p = l.foldl Port.offered (s.port p)

theorem mailed_of_ports {s t : State} (h : t.ports = s.ports) : Mailed s t := fun p =>
  ⟨[], by rw [State.port_eq, h, ← State.port_eq, List.foldl_nil]⟩

theorem Mailed.refl (s : State) : Mailed s s := mailed_of_ports rfl

theorem Mailed.trans {s t u : State} (h : Mailed s t) (h' : Mailed t u) : Mailed s u := fun p => by
  obtain ⟨l, hl⟩ := h p
  obtain ⟨l', hl'⟩ := h' p
  exact ⟨l ++ l', by rw [hl', hl, List.foldl_append]⟩

theorem foldl_mailed {β : Type} {op : State → β → State} (h : ∀ s b, Mailed s (op s b)) (l : List β)
    (s : State) : Mailed s (l.foldl op s) :=
  foldl_invariant (Mailed s) op (fun t b ht => ht.trans (h t b)) l s (.refl s)

theorem place_mailed (s : State) (q : PortId) (m : OutMsg) : Mailed s (s.place q m) := fun p => by
  rw [place_port]
  by_cases h : p = q ∧ s.HasRoom q
  · obtain ⟨rfl, hroom⟩ := h
    exact ⟨[m], by rw [if_pos ⟨rfl, hroom⟩, ← offered_of_room hroom, List.foldl_cons, List.foldl_nil]⟩
  · exact ⟨[], by rw [if_neg h, List.foldl_nil]⟩

/-- A port that is not UP takes no message. -/
theorem Mailed.port_of_not_up {s t : State} (h : Mailed s t) {p : PortId} (hp : (s.port p).state ≠ .up) :
    t.port p = s.port p := by
  obtain ⟨l, hl⟩ := h p
  rw [hl, Port.foldl_offered, if_neg hp]

/-! ## Operations that leave the ports -/

theorem dropHolder_ports (s : State) (w : WindowId) (a : AgentId) : (s.dropHolder w a).ports = s.ports := by
  rw [(dropHolder_changed s w a).only]

theorem dropHolders_ports (s : State) (w : WindowId) (x : AgentSet) : (s.dropHolders w x).ports = s.ports := by
  rw [(dropHolders_changed s w x).only]

theorem addHolder_ports (s : State) (w : WindowId) (a : AgentId) : (s.addHolder w a).ports = s.ports := by
  unfold State.addHolder; split <;> rfl

theorem dropEntries_ports (s : State) (pick : PoolEntry → Bool) : (s.dropEntries pick).ports = s.ports := by
  obtain ⟨_, _, _, h⟩ := dropEntries_only_pool s pick
  rw [h]

theorem dropAnswer_ports (s : State) (k : SlotId) (a : AgentId) : (s.dropAnswer k a).ports = s.ports := by
  rw [(dropAnswer_quits s k a).only]

theorem postAll_ports (s : State) (cs : List Completion) : (s.postAll cs).ports = s.ports :=
  foldl_keeps State.ports State.post (fun _ _ => rfl) cs s

theorem applyAdd_ports (s : State) (w : WindowId) (c : ContextId) (base : LocalPage) (v : NewValues) :
    (s.applyAdd w c base v).ports = s.ports := dropHolders_ports s w (s.window w).holders

theorem applyClose_ports (s : State) (c : ContextId) : (s.applyClose c).ports = s.ports :=
  foldl_keeps State.ports (fun s w => (s.dropHolders w (s.window w).holders).freeRecord w)
    (fun t w => dropHolders_ports t w (t.window w).holders) (s.windowList c) s

theorem leaveWindow_ports (s : State) (a : AgentId) (w : WindowId) : (s.leaveWindow a w).ports = s.ports := by
  have hdrop := dropHolder_ports s w a
  unfold State.leaveWindow
  dsimp only
  split
  · split
    · exact hdrop
    · exact hdrop
  · exact hdrop

theorem leaveHoldings_ports (s : State) (c : ContextId) (a : AgentId) : (s.leaveHoldings c a).ports = s.ports :=
  foldl_keeps State.ports (fun s w => s.leaveWindow a w) (fun t w => leaveWindow_ports t a w) _ s

theorem changeEffect_ports (s : State) (z : ChangeSubject) (v : NewValues) :
    (s.changeEffect z v).ports = s.ports := by
  cases z with
  | modify w => rfl
  | retire w => rfl
  | close c => exact applyClose_ports s c
  | leave c a => exact leaveHoldings_ports s c a

theorem completeSlot_ports (s : State) (k : SlotId) : (s.completeSlot k).1.ports = s.ports := by
  rw [completeSlot_only]

theorem leaveFirst_ports (s : State) (k : SlotId) : (s.leaveFirst k).ports = s.ports := by
  unfold State.leaveFirst
  split
  · split
    · exact leaveHoldings_ports s _ _
    all_goals rfl
  · rfl

theorem completeIfEmptied_ports (x : State × List Completion) (k : SlotId) :
    (completeIfEmptied x k).1.ports = x.1.ports := by
  unfold completeIfEmptied
  split
  · exact completeSlot_ports x.1 k
  · rfl

theorem completeEmptied_ports (s : State) : s.completeEmptied.1.ports = s.ports := by
  unfold State.completeEmptied
  rw [foldl_keeps (fun x : State × List Completion => x.1.ports) _ completeIfEmptied_ports]
  exact foldl_keeps State.ports _ leaveFirst_ports allSlots s

theorem fillRecords_ports (s : State) (k : SlotId) (z : ChangeSubject) : (s.fillRecords k z).ports = s.ports := by
  cases z with
  | modify w => exact dropHolders_ports _ w _
  | retire w => exact dropHolders_ports _ w _
  | close c => rfl
  | leave c a => rfl

theorem lapse_ports (s : State) (k : SlotId) : (s.lapse k).ports = s.ports := by rw [lapse_only]

theorem readGrant_ports (s : State) (d : Detector) (w : WindowId) : (s.readGrant d w).1.ports = s.ports := by
  unfold State.readGrant
  split
  · rfl
  · split
    · rfl
    · rfl
    · unfold State.spoil; split <;> rfl

theorem tickSlot_ports (s : State) (k : SlotId) : (s.tickSlot k).ports = s.ports := by
  unfold State.tickSlot; dsimp only; split <;> rfl

theorem tickScrubber_ports (s : State) : s.tickScrubber.ports = s.ports := by
  unfold State.tickScrubber
  split
  · rfl
  split
  · rfl
  split
  · rw [scrub_only_storage]
  · rfl

theorem tickWalk_ports (s : State) : s.tickWalk.ports = s.ports := by
  unfold State.tickWalk; split <;> rfl

/-! ## Recalls, purges and fences -/

theorem firstRecall_mailed (s : State) (kept : Option AgentId) (k : SlotId) (a : AgentId) :
    Mailed s (s.firstRecall kept k a) := by
  unfold State.firstRecall
  split
  · exact place_mailed s _ _
  · exact mailed_of_ports rfl

theorem fillSlot_mailed (s : State) (kept : Option AgentId) (k : SlotId) (z : ChangeSubject) (v : NewValues)
    (tag : Half) : Mailed s (s.fillSlot kept k z v tag) := by
  have hrecords : ∀ r : Slot, Mailed s (({ s with serial := s.nextSerial }.fillRecords k z).setSlot k r) :=
    fun _ => mailed_of_ports (fillRecords_ports { s with serial := s.nextSerial } k z)
  exact (hrecords _).trans (foldl_mailed (fun t a => firstRecall_mailed t kept k a) _ _)

theorem takeReminder_mailed (s : State) (k : SlotId) : Mailed s (s.takeReminder k) := by
  have hmarked : Mailed s (s.reminderTaken k) := mailed_of_ports rfl
  rw [takeReminder_eq]
  refine hmarked.trans (foldl_mailed (fun t a => ?_) _ _)
  unfold State.remind
  split
  · exact place_mailed t _ _
  · exact .refl t

theorem sendFence_mailed (s : State) (a : AgentId) : Mailed s (s.sendFence a) := fun p => by
  rw [sendFence_port]
  split
  · exact ⟨[.fence a], rfl⟩
  · exact ⟨[], rfl⟩

theorem purgeStart_mailed (s : State) (a : AgentId) (target : PurgeTarget) :
    Mailed s (s.purgeStart a target) := fun p => by
  rw [(purgeStart_started s a target).port p]
  split
  · exact ⟨[.fence a], rfl⟩
  · exact ⟨[], rfl⟩

theorem fence_mailed (s : State) (a : AgentId) : Mailed s (s.fence a) := by
  unfold State.fence
  dsimp only
  split
  · exact purgeStart_mailed s a .fenced
  · split
    · exact .refl s
    · exact sendFence_mailed _ a
  · exact mailed_of_ports rfl
  · exact .refl s

theorem depart_mailed (s : State) (a : AgentId) : Mailed s (s.depart a) := by
  unfold State.depart
  dsimp only
  split
  · exact purgeStart_mailed s a .absent
  · split
    · exact mailed_of_ports rfl
    · exact .refl s
  · exact .refl s
  · exact .refl s

theorem losePort_mailed (s : State) (p : PortId) (a : AgentId) : Mailed s (s.losePort p a) := by
  unfold State.losePort
  split
  · exact (depart_mailed s a).trans (mailed_of_ports rfl)
  · exact .refl s

theorem reachTarget_mailed (s : State) (kept : Option AgentId) (a : AgentId) :
    Mailed s (s.reachTarget kept a) := by
  unfold State.reachTarget
  dsimp only
  split
  · split
    · exact place_mailed _ _ _
    · exact mailed_of_ports rfl
  · exact mailed_of_ports rfl
  · exact mailed_of_ports rfl
  · exact .refl s

theorem endPurge_mailed (s : State) (kept : Option AgentId) (a : AgentId) : Mailed s (s.endPurge kept a) := by
  unfold State.endPurge
  split
  · exact (reachTarget_mailed s kept a).trans (mailed_of_ports rfl)
  · exact .refl s

/-! ## The end of a claim -/

theorem settle_mailed (s : State) (kept : Option AgentId) (late : Bool) : Mailed s (s.settle kept late) := by
  have hended : Mailed s (s.completeEmptied.1.endPurges kept) :=
    (mailed_of_ports (completeEmptied_ports s)).trans
      (foldl_mailed (fun t a => endPurge_mailed t kept a) allAgents _)
  have hclear : ∀ t : State, t.clearFences.ports = t.ports := fun _ => rfl
  refine hended.trans (mailed_of_ports ?_)
  unfold State.settle
  rw [postAll_ports, hclear]

theorem carryOut_mailed (s : State) (kept : Option AgentId) (late : Bool) (r : CmdRecord) (j : Judgement) :
    Mailed s (s.carryOut kept late r j) := by
  cases j with
  | refused status => exact mailed_of_ports rfl
  | immediate z v => exact mailed_of_ports (changeEffect_ports s.takeCommand z v)
  | needsSlot z v =>
    have htake : Mailed s s.takeCommand := mailed_of_ports rfl
    unfold State.carryOut
    dsimp only
    split
    · exact mailed_of_ports rfl
    · exact (htake.trans (fillSlot_mailed _ kept _ z v _)).trans (settle_mailed _ kept late)

theorem reconsider_mailed (s : State) (kept : Option AgentId) : Mailed s (s.reconsider kept) := by
  unfold State.reconsider
  split
  · split
    · exact carryOut_mailed s kept true _ _
    · exact .refl s
  · exact .refl s

theorem finish_mailed (s : State) (caller : Option AgentId) : Mailed s (s.finish caller) := by
  unfold State.finish
  exact (settle_mailed s _ false).trans (reconsider_mailed _ _)

theorem timeOut_mailed (s : State) (k : SlotId) : Mailed s (s.timeOut k) := by
  unfold State.timeOut
  exact ((mailed_of_ports (lapse_ports s k)).trans (foldl_mailed fence_mailed _ _)).trans (finish_mailed _ none)

/-! ## Messages of agents, lookups and the refill -/

theorem takeHello_mailed (s : State) (p : PortId) (a : AgentId) : Mailed s (s.takeHello p a) := by
  have htold : ∀ (r : Agent) (m : OutMsg), Mailed s ((s.setAgent a r).place p m) := fun _ _ => place_mailed _ p _
  unfold State.takeHello
  dsimp only
  split
  · exact htold _ _
  split
  · exact htold _ _
  split
  · exact place_mailed s p _
  split
  · exact (purgeStart_mailed s a .active).trans (finish_mailed _ _)
  split
  · exact htold _ _
  split
  · exact htold _ _
  split
  · exact mailed_of_ports rfl
  · exact .refl s

theorem takeGoodbye_mailed (s : State) (p : PortId) (a : AgentId) : Mailed s (s.takeGoodbye p a) := by
  unfold State.takeGoodbye
  split
  · exact (depart_mailed s a).trans (finish_mailed _ none)
  · exact .refl s

theorem takeRelease_mailed (s : State) (p : PortId) (a : AgentId) (w : WindowId) (version : Half) :
    Mailed s (s.takeRelease p a w version) := by
  have hdrop : Mailed s (s.dropHolder w a) := mailed_of_ports (dropHolder_ports s w a)
  have hquit : ∀ k, Mailed s ((s.dropHolder w a).dropPending k a) := fun _ => hdrop.trans (mailed_of_ports rfl)
  unfold State.takeRelease
  split
  · dsimp only
    split
    · exact (hquit _).trans (finish_mailed _ none)
    · exact hdrop.trans (finish_mailed _ none)
  · exact .refl s

theorem takeAck_mailed (s : State) (p : PortId) (a : AgentId) (serial : Half) :
    Mailed s (s.takeAck p a serial) := by
  unfold State.takeAck
  split
  · exact (mailed_of_ports (dropAnswer_ports s _ a)).trans (finish_mailed _ none)
  · exact .refl s

theorem answerLive_mailed (s : State) (p : PortId) (r : Request) (w : WindowId) :
    Mailed s (s.answerLive p r w) := by
  have hread : Mailed s (s.readGrant .lookup w).1 := mailed_of_ports (readGrant_ports s .lookup w)
  unfold State.answerLive
  dsimp only
  split
  · exact hread.trans (place_mailed _ p _)
  · split
    · exact (hread.trans (mailed_of_ports (addHolder_ports _ w r.agent))).trans (place_mailed _ p _)
    · exact hread.trans (place_mailed _ p _)

/-- A lookup claim on a port's head takes the head, and then answers. -/
theorem serve_mailed (s : State) (p : PortId) (r : Request) : Mailed (s.takeInbound p) (s.serve p r) := by
  have hserved : Mailed (s.takeInbound p) { s.takeInbound p with lastPort := p } := mailed_of_ports rfl
  unfold State.serve
  dsimp only
  split
  · exact hserved.trans (place_mailed _ p _)
  · refine hserved.trans ?_
    unfold State.park
    split
    · exact mailed_of_ports rfl
    · exact place_mailed _ p _
  · exact hserved.trans (answerLive_mailed _ p r _)

theorem serveReplay_mailed (s : State) (e : EntryId) : Mailed s (s.serveReplay e) := by
  have htaken : Mailed s { s with replayList := s.replayList.erase e } := mailed_of_ports rfl
  unfold State.serveReplay
  dsimp only
  split
  · exact (htaken.trans (place_mailed _ _ _)).trans (mailed_of_ports rfl)
  · exact htaken.trans (mailed_of_ports rfl)
  · exact (htaken.trans (answerLive_mailed _ _ _ _)).trans (mailed_of_ports rfl)

theorem refillOwed_mailed (s : State) (p : PortId) (a : AgentId) : Mailed s (s.refillOwed p a) := by
  have hpaid : ∀ (r : Agent) (m : OutMsg), Mailed s ((s.setAgent a r).place p m) := fun _ _ => place_mailed _ p _
  unfold State.refillOwed
  dsimp only
  split
  · split
    · exact hpaid _ _
    split
    · exact hpaid _ _
    · exact .refl s
  · exact .refl s

theorem refillSlot_mailed (s : State) (p : PortId) (k : SlotId) : Mailed s (s.refillSlot p k) := by
  unfold State.refillSlot
  split
  · refine foldl_mailed (fun t a => ?_) _ s
    unfold State.refillRecall
    split
    · exact (place_mailed t p _).trans (mailed_of_ports rfl)
    · exact .refl t
  · exact .refl s

/-! ## Commands of the command engine -/

theorem openContext_ports (s : State) (r : CmdRecord) : (s.openContext r).ports = s.ports := by
  unfold State.openContext
  split
  · rfl
  split
  · rfl
  split
  · rfl
  · rfl

theorem joinContext_ports (s : State) (r : CmdRecord) : (s.joinContext r).ports = s.ports := by
  unfold State.joinContext
  split
  · rfl
  split
  · rfl
  split
  · rfl
  · rfl

theorem addChecked_ports (s : State) (r : CmdRecord) (c : ContextId) (v : NewValues) :
    (s.addChecked r c v).ports = s.ports := by
  unfold State.addChecked
  split
  · rfl
  split
  · rfl
  split
  · rfl
  split
  · rfl
  · next w _ => exact applyAdd_ports s.takeCommand w c (localBaseOperand r) v

theorem addWindow_ports (s : State) (r : CmdRecord) : (s.addWindow r).ports = s.ports := by
  unfold State.addWindow
  split
  · split
    · exact addChecked_ports s r _ _
    · rfl
  · rfl

theorem fenceAgent_mailed (s : State) (r : CmdRecord) : Mailed s (s.fenceAgent r) := by
  have htake : Mailed s s.takeCommand := mailed_of_ports rfl
  have hwait : ∀ l, Mailed s { s.takeCommand with fenceWait := l } := fun _ => mailed_of_ports rfl
  unfold State.fenceAgent
  split
  · exact mailed_of_ports rfl
  · dsimp only
    split
    · exact (htake.trans (fence_mailed _ _)).trans (mailed_of_ports rfl)
    · exact ((hwait _).trans (fence_mailed _ _)).trans (finish_mailed _ none)

theorem unfenceAgent_mailed (s : State) (r : CmdRecord) : Mailed s (s.unfenceAgent r) := by
  have hset : ∀ a r', Mailed s (s.takeCommand.setAgent a r') := fun _ _ => mailed_of_ports rfl
  unfold State.unfenceAgent
  split
  · exact mailed_of_ports rfl
  split
  · dsimp only
    split
    · exact ((hset _ _).trans (place_mailed _ _ _)).trans (mailed_of_ports rfl)
    · exact mailed_of_ports rfl
  · exact mailed_of_ports rfl

theorem queryWindow_ports (s : State) (r : CmdRecord) : (s.queryWindow r).ports = s.ports := by
  unfold State.queryWindow
  split
  · rfl
  · exact readGrant_ports s.takeCommand .query _

theorem queryAgent_ports (s : State) (r : CmdRecord) : (s.queryAgent r).ports = s.ports := by
  unfold State.queryAgent
  split <;> rfl

theorem queryContext_ports (s : State) (r : CmdRecord) : (s.queryContext r).ports = s.ports := by
  unfold State.queryContext
  split <;> rfl

end Sys2Proof.Machine
end

section
/-! SUPPORT. A port's change of state: its entry into UP with the FENCEs of its agents (R112, R40), into TRAINING and
into REINIT (R113), and what its record then is. -/

namespace Sys2Proof.Machine

/-! ## Entering UP (R112, R40) -/

/-- The port's record UP, with empty queues and no returned credit owed. -/
def Port.broughtUp (r : Port) : Port :=
  { r with
    state := .up, readySent := true, partnerReady := true, inbound := [], outbound := [], returnedOwed := 0 }

/-- Port `p` UP, before its FENCEs. -/
def State.broughtUp (s : State) (p : PortId) : State :=
  { s.setPort p (s.port p).broughtUp with portChange := true }

theorem enterUp_eq (s : State) (p : PortId) :
    s.enterUp p = allAgents.foldl (fun t a => t.announceFence p a) (s.broughtUp p) := rfl

/-- The agent is bound to port `p` and FENCED, or on its way there. -/
abbrev State.FencedOn (s : State) (p : PortId) (a : AgentId) : Prop :=
  (s.agent a).port = some p ∧
    ((s.agent a).state = .fenced ∨ (s.agent a).state = .purging ∧ (s.agent a).target = some .fenced)

theorem announceFence_onlyPorts {s t : State} (h : OnlyPorts s t) (p : PortId) (a : AgentId) :
    OnlyPorts s (t.announceFence p a) := by
  unfold State.announceFence
  dsimp only
  split
  · unfold OnlyPorts
    rw [place_only_ports, h]
  · exact h

theorem announceFence_port (s : State) (p : PortId) (a : AgentId) (q : PortId) :
    (s.announceFence p a).port q = if (if s.FencedOn p a then some p else none) = some q
      then (s.port q).offered (.fence a) else s.port q := by
  unfold State.announceFence
  dsimp only
  by_cases hfenced : s.FencedOn p a
  · rw [if_pos hfenced, if_pos hfenced, place_port]
    by_cases hq : q = p
    · subst hq
      by_cases hroom : s.HasRoom q
      · rw [if_pos ⟨rfl, hroom⟩, if_pos rfl, offered_of_room hroom]
      · rw [if_neg fun h => hroom h.2, if_pos rfl, offered_of_no_room hroom]
    · rw [if_neg fun h => hq h.1, if_neg fun h => hq (Option.some.inj h).symm]
  · rw [if_neg hfenced, if_neg hfenced, if_neg nofun]

theorem enterUp_only (s : State) (p : PortId) :
    s.enterUp p = { s with ports := (s.enterUp p).ports, portChange := true } := by
  have honly : OnlyPorts (s.broughtUp p) (s.enterUp p) := by
    rw [enterUp_eq]
    exact foldl_invariant (OnlyPorts (s.broughtUp p)) _ (fun _ a h => announceFence_onlyPorts h p a) allAgents _ rfl
  exact honly

theorem fencesOn_length (s : State) (p : PortId) : (s.fencesOn p).length ≤ 32 := by
  rw [State.fencesOn, List.length_map]
  exact (List.length_filter_le _ _).trans (List.length_finRange (n := 32)).le

/-- The FENCEs of the port's agents find an empty queue, so all of them are placed. -/
theorem enterUp_port (s : State) (p q : PortId) : (s.enterUp p).port q = if q = p then
    ⟨.up, (s.port p).destination, true, true, [], s.fencesOn p, (s.port p).partnerCredits, 0⟩ else s.port q := by
  have hfold := foldl_offers (P := OnlyPorts (s.broughtUp p)) (op := fun t a => t.announceFence p a)
    (bound := fun a => if s.FencedOn p a then some p else none) (m := OutMsg.fence)
    (fun _ a h => announceFence_onlyPorts h p a)
    (fun t a q h => by
      rw [announceFence_port, h]
      rfl) allAgents (s := s.broughtUp p) rfl q
  have hbrought : (s.broughtUp p).port q = if q = p then (s.port p).broughtUp else s.port q :=
    State.setPort_port s p q (s.port p).broughtUp
  rw [enterUp_eq, hfold, hbrought]
  by_cases hq : q = p
  · subst hq
    have hoffers : offersTo (fun a => if s.FencedOn q a then some q else none) OutMsg.fence allAgents q
        = s.fencesOn q := by
      refine congrArg (List.map OutMsg.fence) (List.filter_congr fun a _ => ?_)
      by_cases ha : s.FencedOn q a
      · simp only [if_pos ha, decide_true]
        exact (decide_eq_true ha).symm
      · simp only [if_neg ha]
        exact (decide_eq_false ha).symm
    rw [if_pos rfl, if_pos rfl, hoffers, if_pos (show (s.port q).broughtUp.state = .up from rfl), Port.loaded]
    simp only [Port.broughtUp, List.nil_append, List.length_nil, Nat.sub_zero,
      List.take_of_length_le (fencesOn_length s q)]
  · have hoffers : offersTo (fun a => if s.FencedOn p a then some p else none) OutMsg.fence allAgents q = [] := by
      unfold offersTo
      rw [List.filter_eq_nil_iff.mpr, List.map_nil]
      intro a _ ha
      rw [decide_eq_true_eq] at ha
      dsimp only at ha
      split at ha
      · exact hq (Option.some.inj ha).symm
      · cases ha
    rw [if_neg hq, if_neg hq, hoffers, Port.loaded_nil, ite_self]

/-! ## Entering REINIT (R113) -/

theorem discardLink_port (s : State) (p : PortId) (d : Destination) (q : PortId) :
    (s.discardLink p d).port q = if q = p then reinitRecord d else s.port q :=
  State.setPort_port s p q (reinitRecord d)

theorem enterReinit_mailed (s : State) (p : PortId) (d : Destination) :
    Mailed (s.discardLink p d) (s.enterReinit p d) := by
  unfold State.enterReinit State.losePorts
  exact ((mailed_of_ports (dropEntries_ports _ _)).trans
    (foldl_mailed (fun t a => losePort_mailed t p a) _ _)).trans (finish_mailed _ none)

/-- Whatever the claim places, the port in REINIT takes none of it. -/
theorem enterReinit_port (s : State) (p : PortId) (d : Destination) :
    (s.enterReinit p d).port p = reinitRecord d := by
  have hdiscard : (s.discardLink p d).port p = reinitRecord d := by rw [discardLink_port, if_pos rfl]
  rw [(enterReinit_mailed s p d).port_of_not_up (by rw [hdiscard]; exact nofun), hdiscard]

theorem flags_of_outside {t : State} {x : Outside} (h : t.outside = x) :
    t.portChange = x.portChange ∧ t.linkBank = x.linkBank := by
  rw [← h]
  exact ⟨rfl, rfl⟩

theorem enterReinit_flags (s : State) (p : PortId) (d : Destination) :
    (s.enterReinit p d).portChange = true ∧ (s.enterReinit p d).linkBank = s.linkBank :=
  flags_of_outside (enterReinit_outside s p d)

end Sys2Proof.Machine
end

section
/-! SUPPORT. Every step keeps the ports' queues and credits within their bounds (O54): a message is placed only where
there is room, a credit is counted only where the sum allows, and every other record written is one of the
port's states. -/

namespace Sys2Proof.Machine

/-! ## One record -/

theorem Port.offered_bounded {r : Port} (h : PortBounded r) (m : OutMsg) : PortBounded (r.offered m) := by
  unfold Port.offered
  split
  · next hroom =>
    obtain ⟨hin, _, hcredits, _, hdown⟩ := h
    refine ⟨hin, ?_, hcredits, fun hup => absurd hroom.1 hup, hdown⟩
    rw [List.length_append, List.length_singleton]
    exact hroom.2
  · exact h

theorem Mailed.bounded {s t : State} (h : Mailed s t) (hs : PortsBounded s) : PortsBounded t := fun p => by
  obtain ⟨l, hl⟩ := h p
  rw [hl]
  exact foldl_invariant PortBounded Port.offered (fun _ m hr => Port.offered_bounded hr m) l _ (hs p)

theorem setPort_bounded {s : State} (h : PortsBounded s) {p : PortId} {r : Port} (hr : PortBounded r) :
    PortsBounded (s.setPort p r) := fun q => by
  rw [State.setPort_port]
  split
  · exact hr
  · exact h q

/-- A record with both queues empty and nothing owed. -/
theorem portBounded_of_empty {r : Port} (hin : r.inbound = []) (hout : r.outbound = []) (howed : r.returnedOwed = 0)
    (hcredits : r.partnerCredits ≤ 32) (hdown : r.state = .disabled ∨ r.state = .reinit → r.partnerCredits = 0) :
    PortBounded r :=
  ⟨by rw [hin, howed]; decide, by rw [hout]; decide, hcredits, fun _ => ⟨hin, hout, howed⟩, hdown⟩

/-- An UP port's record is bounded as its queues and credits are. -/
theorem portBounded_of_up {r : Port} (hup : r.state = .up) (hin : r.inbound.length + r.returnedOwed ≤ 16)
    (hout : r.outbound.length ≤ 32) (hcredits : r.partnerCredits ≤ 32) : PortBounded r :=
  ⟨hin, hout, hcredits, fun h => absurd hup h, by rw [hup]; exact nofun⟩

theorem reinitRecord_bounded (d : Destination) : PortBounded (reinitRecord d) :=
  portBounded_of_empty rfl rfl rfl (Nat.zero_le _) fun _ => rfl

section
variable {s : State}

/-! ## A port's change of state -/

theorem enterUp_bounded (h : PortsBounded s) (p : PortId) : PortsBounded (s.enterUp p) := fun q => by
  rw [enterUp_port]
  split
  · exact portBounded_of_up rfl (Nat.zero_le _) (fencesOn_length s p) (h p).2.2.1
  · exact h q

theorem enterTraining_bounded (h : PortsBounded s) (p : PortId) : PortsBounded (s.enterTraining p) :=
  setPort_bounded h (r := { s.port p with
      state := .training, readySent := false, partnerReady := false, inbound := [], outbound := [],
      partnerCredits := 0, returnedOwed := 0 })
    (portBounded_of_empty rfl rfl rfl (Nat.zero_le _) fun _ => rfl)

theorem discardLink_bounded (h : PortsBounded s) (p : PortId) (d : Destination) :
    PortsBounded (s.discardLink p d) := setPort_bounded h (reinitRecord_bounded d)

theorem enterReinit_bounded (h : PortsBounded s) (p : PortId) (d : Destination) :
    PortsBounded (s.enterReinit p d) := (enterReinit_mailed s p d).bounded (discardLink_bounded h p d)

theorem violation_bounded (h : PortsBounded s) (p : PortId) (kind : Violation) : PortsBounded (s.violation p kind) :=
  enterReinit_bounded (s := { s with linkBank := recordLink s.linkBank p kind }) h p .training

/-! ## Frames received (R112, R118, R120) -/

theorem creditCount_bounds {f : Frame} {n : Nat} (h : creditCount f = some n) : 1 ≤ n ∧ n ≤ 32 := by
  unfold creditCount at h
  dsimp only at h
  split at h
  · next hn =>
    cases h
    exact hn
  · cases h

/-- The count of a READY that is taken. -/
theorem ready_count_le {f : Frame} {n : Nat} (h : decodeFrame f = .ready n) : n ≤ 32 := by
  unfold decodeFrame at h
  dsimp only at h
  split at h
  · split at h
    · cases h
    · split at h
      · unfold decodeBody at h
        split at h
        · split at h
          · next hn =>
            cases h
            exact (creditCount_bounds hn).2
          · cases h
        · split at h <;> cases h
        · cases h
        · split at h
          · cases h
          · split at h <;> cases h
      · cases h
  · cases h

theorem receiveReady_bounded (h : PortsBounded s) (p : PortId) {n : Nat} (hn : n ≤ 32) :
    PortsBounded (s.receiveReady p n) := by
  unfold State.receiveReady
  split
  · next htraining =>
    obtain ⟨hin, hout, _, hempty, _⟩ := h p
    obtain ⟨hin, hout, howed⟩ := hempty (by rw [htraining]; exact nofun)
    have hset : PortsBounded (s.setPort p { s.port p with partnerReady := true, partnerCredits := n }) :=
      setPort_bounded h (portBounded_of_empty hin hout howed hn (by dsimp only; rw [htraining]; exact nofun))
    dsimp only
    split
    · exact enterUp_bounded hset p
    · exact hset
  · exact violation_bounded h p _

theorem receiveCredit_bounded (h : PortsBounded s) (p : PortId) (n : Nat) : PortsBounded (s.receiveCredit p n) := by
  unfold State.receiveCredit
  dsimp only
  split
  · exact violation_bounded h p _
  · next hsum =>
    split
    · next hup =>
      obtain ⟨hin, hout, _⟩ := h p
      exact setPort_bounded h (portBounded_of_up hup hin hout (Nat.le_of_not_lt hsum))
    · exact violation_bounded h p _

theorem receiveReinit_bounded (h : PortsBounded s) (p : PortId) : PortsBounded (s.receiveReinit p) := by
  unfold State.receiveReinit
  dsimp only
  split
  · exact enterReinit_bounded h p .training
  · next hup =>
    obtain ⟨_, _, _, hempty, _⟩ := h p
    obtain ⟨hin, hout, howed⟩ := hempty hup
    exact setPort_bounded h (portBounded_of_empty hin hout howed (Nat.zero_le _) fun _ => rfl)

/-- A credit is left at the partner exactly while the messages and the credits owed are below 16. -/
theorem creditsAtPartner_eq_zero_iff (r : Port) :
    creditsAtPartner r = 0 ↔ 16 ≤ r.inbound.length + r.returnedOwed := by
  unfold creditsAtPartner Config.inboundPlaces
  omega

theorem receiveAgent_bounded (h : PortsBounded s) (p : PortId) (m : InMsg) : PortsBounded (s.receiveAgent p m) := by
  unfold State.receiveAgent
  dsimp only
  split
  · next hup =>
    split
    · exact violation_bounded h p _
    · next hcredit =>
      obtain ⟨_, hout, hcredits, _⟩ := h p
      rw [creditsAtPartner_eq_zero_iff] at hcredit
      refine setPort_bounded h (portBounded_of_up hup ?_ hout hcredits)
      dsimp only
      rw [List.length_append, List.length_singleton]
      omega
  · exact violation_bounded h p _

theorem receive_bounded (h : PortsBounded s) (p : PortId) (f : Frame) : PortsBounded (s.receive p f) := by
  unfold State.receive
  split
  · split
    · exact violation_bounded h p _
    · next hready => exact receiveReady_bounded h p (ready_count_le hready)
    · exact receiveCredit_bounded h p _
    · exact receiveReinit_bounded h p
    · exact receiveAgent_bounded h p _
  · exact h

/-! ## Messages taken (R117) -/

theorem takeInbound_bounded (h : PortsBounded s) {p : PortId} (hup : (s.port p).state = .up)
    (hin : (s.port p).inbound ≠ []) : PortsBounded (s.takeInbound p) := by
  obtain ⟨hsum, hout, hcredits, _⟩ := h p
  have hlength := List.length_pos_iff.mpr hin
  refine setPort_bounded h (portBounded_of_up hup ?_ hout hcredits)
  dsimp only
  rw [List.length_tail]
  omega

/-- A message that a dispatcher takes stands at the head of an UP port. -/
theorem inboundHead_up {p : PortId} {m : InMsg} (h : s.inboundHead p = some m) :
    (s.port p).state = .up ∧ (s.port p).inbound ≠ [] := by
  unfold State.inboundHead at h
  split at h
  · next hup => exact ⟨hup, fun hnil => by rw [hnil] at h; cases h⟩
  · cases h

theorem takeInbound_bounded_of_head (h : PortsBounded s) {p : PortId} {m : InMsg} (hm : s.inboundHead p = some m) :
    PortsBounded (s.takeInbound p) := takeInbound_bounded h (inboundHead_up hm).1 (inboundHead_up hm).2

theorem portRequest_up {p : PortId} {r : Request} (h : s.portRequest p = some r) :
    (s.port p).state = .up ∧ (s.port p).inbound ≠ [] := by
  unfold State.portRequest at h
  split at h
  · next hroom => exact ⟨hroom.1, fun hnil => by rw [hnil] at h; cases h⟩
  · cases h

/-! ## Resets, ticks and port commands -/

theorem softReset_bounded (h : PortsBounded s) : PortsBounded s.softReset := by
  have hfold : ∀ t : State, PortsBounded t → PortsBounded (allPorts.foldl State.softResetPort t) := fun t ht => by
    refine foldl_invariant PortsBounded State.softResetPort (fun u p hu => ?_) allPorts t ht
    unfold State.softResetPort
    split
    · exact discardLink_bounded hu p .training
    · exact hu
  have hwalk : ∀ t : State, PortsBounded t → PortsBounded t.beginWalk := fun _ ht => ht
  unfold State.softReset
  exact hwalk _ (hfold _ h)

theorem ticked_bounded (h : PortsBounded s) : PortsBounded s.ticked := by
  have hdue : ∀ t : State, Mailed t t.takeAllDue := fun t => by
    refine foldl_mailed (fun u k => ?_) allSlots t
    unfold State.takeDue
    split
    · exact .refl u
    · exact takeReminder_mailed u k
    · exact timeOut_mailed u k
  have hcatch : Mailed s s.catchUp := by
    unfold State.catchUp
    split
    · split
      · exact mailed_of_ports rfl
      · exact .refl s
    · exact hdue s
  have htick : Mailed s.catchUp s.ticked := mailed_of_ports
    ((tickWalk_ports _).trans ((tickScrubber_ports _).trans (foldl_keeps State.ports _ tickSlot_ports allSlots _)))
  exact (hcatch.trans htick).bounded h

theorem postPort_bounded (h : PortsBounded s) (r : CmdRecord) (p : PortId) : PortsBounded (s.postPort r p) := h

theorem enablePort_bounded (h : PortsBounded s) (r : CmdRecord) : PortsBounded (s.enablePort r) := by
  unfold State.enablePort
  split
  · exact h
  split
  · exact postPort_bounded (enterTraining_bounded (s := s.takeCommand) h _) r _
  · exact h

theorem disableLink_bounded (h : PortsBounded s) (p : PortId) : PortsBounded (s.disableLink p) := by
  unfold State.disableLink
  split
  · exact enterReinit_bounded h p .disabled
  · exact enterReinit_bounded h p .disabled
  · exact setPort_bounded h (h p)
  · exact h

theorem disablePort_bounded (h : PortsBounded s) (r : CmdRecord) : PortsBounded (s.disablePort r) := by
  unfold State.disablePort
  split
  · exact h
  · exact postPort_bounded (disableLink_bounded (s := s.takeCommand) h _) r _

theorem resetPort_bounded (h : PortsBounded s) (r : CmdRecord) : PortsBounded (s.resetPort r) := by
  unfold State.resetPort
  split
  · exact h
  split
  · exact postPort_bounded (enterReinit_bounded (s := s.takeCommand) h _ .training) r _
  · exact h

theorem writeRegister_bounded (h : PortsBounded s) (offset : BitVec 8) (value : Word) :
    PortsBounded (s.writeRegister offset value) := by
  have hother : ∀ {t : State}, t.ports = s.ports → PortsBounded t := fun ht => (mailed_of_ports ht).bounded h
  unfold State.writeRegister
  split
  · split
    · exact softReset_bounded h
    · exact h
  · exact h
  · exact h
  · unfold State.stage
    split
    · exact hother rfl
    · exact h
  · unfold State.postCommand
    split <;> exact hother rfl
  · unfold State.popCompletion
    split
    · exact h
    · exact hother rfl
  · exact h
  · exact h
  · exact h
  · exact h

theorem takeHead_bounded {f : CmdRecord → State → State} (kind : Option CommandKind)
    (hf : ∀ r, PortsBounded s → PortsBounded (f r s)) (h : PortsBounded s) : PortsBounded (s.takeHead kind f) := by
  refine whenServing_keeps (fun h => ?_) h
  split
  · exact hf _ h
  · exact h

end

/-! ## Departures (R112, R113, R117, R119) -/

section
variable (s : State)

theorem execReadyDeparture_bounded (p : PortId) :
    AnswersBy (Keeps PortsBounded) s (execReadyDeparture p s) := by
  refine ⟨_, rfl, whenServing_keeps fun h => ?_⟩
  dsimp only
  split
  · split
    · exact enterUp_bounded (s := s.setLane p readyFrame) h p
    · exact setPort_bounded (s := s.setLane p readyFrame) h (h p)
  · exact h

theorem execReinitDeparture_bounded (p : PortId) :
    AnswersBy (Keeps PortsBounded) s (execReinitDeparture p s) := by
  refine ⟨_, rfl, whenReleased_keeps fun h => ?_⟩
  dsimp only
  split
  · next hreinit =>
    split
    · exact enterTraining_bounded (s := s.setLane p reinitFrame) h p
    · obtain ⟨_, _, hcredits, hempty, hdown⟩ := h p
      obtain ⟨hin, hout, howed⟩ := hempty (by rw [hreinit]; exact nofun)
      exact setPort_bounded (s := s.setLane p reinitFrame) h
        (portBounded_of_empty hin hout howed hcredits fun _ => hdown (.inr hreinit))
  · exact h

theorem execCreditDeparture_bounded (p : PortId) :
    AnswersBy (Keeps PortsBounded) s (execCreditDeparture p s) := by
  refine ⟨_, rfl, whenReleased_keeps fun h => ?_⟩
  dsimp only
  split
  · next howed =>
    obtain ⟨hin, hout, hcredits, _⟩ := h p
    exact setPort_bounded (s := s.setLane p _) h
      (portBounded_of_up howed.1 ((Nat.le_add_right _ _).trans hin) hout hcredits)
  · exact h

theorem execOutboundDeparture_bounded (p : PortId) :
    AnswersBy (Keeps PortsBounded) s (execOutboundDeparture p s) := by
  refine ⟨_, rfl, whenReleased_keeps fun h => ?_⟩
  dsimp only
  split
  · exact h
  · next m rest hout =>
    split
    · next hsends =>
      obtain ⟨hin, hlength, hcredits, _⟩ := h p
      rw [hout, List.length_cons] at hlength
      exact setPort_bounded (s := s.setLane p _) h (portBounded_of_up hsends.1 hin
        ((Nat.le_succ _).trans hlength) ((Nat.sub_le _ _).trans hcredits))
    · exact h

/-! ## Claims that place messages -/

theorem execHello_bounded (p : PortId) : AnswersBy (Keeps PortsBounded) s (execHello p s) := by
  refine ⟨_, rfl, whenServing_keeps fun h => ?_⟩
  split
  · next hm =>
    split
    · exact (takeHello_mailed _ p _).bounded (takeInbound_bounded_of_head h hm)
    · exact h
  · exact h

theorem execGoodbye_bounded (p : PortId) : AnswersBy (Keeps PortsBounded) s (execGoodbye p s) := by
  refine ⟨_, rfl, whenServing_keeps fun h => ?_⟩
  split
  · next hm => exact (takeGoodbye_mailed _ p _).bounded (takeInbound_bounded_of_head h hm)
  · exact h

theorem execRelease_bounded (p : PortId) : AnswersBy (Keeps PortsBounded) s (execRelease p s) := by
  refine ⟨_, rfl, whenServing_keeps fun h => ?_⟩
  split
  · next hm => exact (takeRelease_mailed _ p _ _ _).bounded (takeInbound_bounded_of_head h hm)
  · exact h

theorem execRecallAck_bounded (p : PortId) : AnswersBy (Keeps PortsBounded) s (execRecallAck p s) := by
  refine ⟨_, rfl, whenServing_keeps fun h => ?_⟩
  split
  · next hm => exact (takeAck_mailed _ p _ _).bounded (takeInbound_bounded_of_head h hm)
  · exact h

theorem execLookup_bounded : AnswersBy (Keeps PortsBounded) s (execLookup s) := by
  refine ⟨_, rfl, whenServing_keeps fun h => ?_⟩
  split
  · split
    · next r hr =>
      obtain ⟨hup, hin⟩ := portRequest_up hr
      exact (serve_mailed s _ r).bounded (takeInbound_bounded h hup hin)
    · exact h
  · exact h

theorem execReplay_bounded : AnswersBy (Keeps PortsBounded) s (execReplay s) := by
  refine ⟨_, rfl, whenServing_keeps fun h => ?_⟩
  split
  · exact (serveReplay_mailed s _).bounded h
  · exact h

theorem execRefill_bounded (p : PortId) : AnswersBy (Keeps PortsBounded) s (execRefill p s) := by
  have howed := foldl_mailed (fun t a => refillOwed_mailed t p a) allAgents s
  have hslots := fun t => foldl_mailed (fun t k => refillSlot_mailed t p k) allSlots t
  exact ⟨_, rfl, whenServing_keeps (howed.trans (hslots _)).bounded⟩

theorem execPurgeVisit_bounded : AnswersBy (Keeps PortsBounded) s (execPurgeVisit s) := by
  have hvisited : Mailed s s.visited := mailed_of_ports (by rw [visited_only])
  refine ⟨_, rfl, whenServing_keeps fun h => ?_⟩
  split
  · exact h
  · exact (hvisited.trans (finish_mailed _ none)).bounded h

/-! ## Every command -/

theorem exec_bounded (c : Instr) : AnswersBy (Keeps PortsBounded) s (exec c s) := by
  have hkept : ∀ {t : State}, t.ports = s.ports → PortsBounded s → PortsBounded t :=
    fun ht => (mailed_of_ports ht).bounded
  have hcarry : ∀ (j : CmdRecord → Judgement) (r : CmdRecord), PortsBounded s →
      PortsBounded (s.carryOut none false r (j r)) := fun j r => (carryOut_mailed s none false r (j r)).bounded
  cases c with
  | resetNAssert => exact ⟨_, rfl, fun h => h⟩
  | resetNRelease =>
    refine ⟨_, rfl, fun h => ?_⟩
    split
    · exact fun _ => portBounded_of_empty rfl rfl rfl (Nat.zero_le _) fun _ => rfl
    · exact h
  | initWalkEnd =>
    refine ⟨_, rfl, whenReleased_keeps fun h => ?_⟩
    split
    · exact h
    · exact h
  | softReset value =>
    refine ⟨_, rfl, whenReleased_keeps fun h => ?_⟩
    split
    · exact softReset_bounded h
    · exact h
  | timebaseTick => exact ⟨_, rfl, whenReleased_keeps ticked_bounded⟩
  | storedError w bit => exact ⟨_, rfl, fun h => h⟩
  | readyReceived p f => exact ⟨_, rfl, whenReleased_keeps fun h => receive_bounded h p f⟩
  | creditReceived p f => exact ⟨_, rfl, whenReleased_keeps fun h => receive_bounded h p f⟩
  | reinitReceived p f => exact ⟨_, rfl, whenReleased_keeps fun h => receive_bounded h p f⟩
  | agentMessageArrival p f => exact ⟨_, rfl, whenReleased_keeps fun h => receive_bounded h p f⟩
  | hello p => exact execHello_bounded s p
  | goodbye p => exact execGoodbye_bounded s p
  | release p => exact execRelease_bounded s p
  | recallAck p => exact execRecallAck_bounded s p
  | lookup => exact execLookup_bounded s
  | replay => exact execReplay_bounded s
  | readyDeparture p => exact execReadyDeparture_bounded s p
  | reinitDeparture p => exact execReinitDeparture_bounded s p
  | creditDeparture p => exact execCreditDeparture_bounded s p
  | outboundDeparture p => exact execOutboundDeparture_bounded s p
  | refill p => exact execRefill_bounded s p
  | recallReminder k =>
    refine ⟨_, rfl, whenServing_keeps fun h => ?_⟩
    split
    · exact (takeReminder_mailed s k).bounded h
    · exact h
  | recallTimeout k =>
    refine ⟨_, rfl, whenServing_keeps fun h => ?_⟩
    split
    · exact (timeOut_mailed s k).bounded h
    · exact h
  | scrubRead =>
    refine ⟨_, rfl, whenServing_keeps fun h => ?_⟩
    split
    · exact hkept (readGrant_ports s .scrub s.scrubPosition) h
    · exact h
  | purgeVisit => exact execPurgeVisit_bounded s
  | badCommand => exact ⟨_, rfl, takeHead_bounded _ fun _ h => h⟩
  | openContext => exact ⟨_, rfl, takeHead_bounded _ fun r => hkept (openContext_ports s r)⟩
  | closeContext => exact ⟨_, rfl, takeHead_bounded _ (hcarry (judgeClose s))⟩
  | join => exact ⟨_, rfl, takeHead_bounded _ fun r => hkept (joinContext_ports s r)⟩
  | leave => exact ⟨_, rfl, takeHead_bounded _ (hcarry (judgeLeave s))⟩
  | addWindow => exact ⟨_, rfl, takeHead_bounded _ fun r => hkept (addWindow_ports s r)⟩
  | modifyWindow => exact ⟨_, rfl, takeHead_bounded _ (hcarry (judgeModify s))⟩
  | retireWindow => exact ⟨_, rfl, takeHead_bounded _ (hcarry (judgeRetire s))⟩
  | fenceAgent => exact ⟨_, rfl, takeHead_bounded _ fun r => (fenceAgent_mailed s r).bounded⟩
  | unfenceAgent => exact ⟨_, rfl, takeHead_bounded _ fun r => (unfenceAgent_mailed s r).bounded⟩
  | queryWindow => exact ⟨_, rfl, takeHead_bounded _ fun r => hkept (queryWindow_ports s r)⟩
  | queryAgent => exact ⟨_, rfl, takeHead_bounded _ fun r => hkept (queryAgent_ports s r)⟩
  | queryContext => exact ⟨_, rfl, takeHead_bounded _ fun r => hkept (queryContext_ports s r)⟩
  | portEnable => exact ⟨_, rfl, takeHead_bounded _ fun r h => enablePort_bounded h r⟩
  | portDisable => exact ⟨_, rfl, takeHead_bounded _ fun r h => disablePort_bounded h r⟩
  | portReset => exact ⟨_, rfl, takeHead_bounded _ fun r h => resetPort_bounded h r⟩
  | cmdWordWrite value =>
    exact ⟨_, rfl, whenReleased_keeps fun h => writeRegister_bounded h 0x08 value⟩
  | cmdPost value => exact ⟨_, rfl, whenReleased_keeps fun h => writeRegister_bounded h 0x09 value⟩
  | cplWordRead =>
    refine ⟨_, rfl, fun h => ?_⟩
    split
    · exact h
    · unfold State.readCompletion
      split <;> exact hkept rfl h
  | cplPop value => exact ⟨_, rfl, whenReleased_keeps fun h => writeRegister_bounded h 0x0D value⟩
  | attnCauseWrite value => exact ⟨_, rfl, whenReleased_keeps fun h => h⟩
  | attnEnableWrite value => exact ⟨_, rfl, whenReleased_keeps fun h => h⟩
  | recallLimitWrite value => exact ⟨_, rfl, whenReleased_keeps fun h => h⟩
  | scrubIntervalWrite value => exact ⟨_, rfl, whenReleased_keeps fun h => h⟩
  | faultClear value => exact ⟨_, rfl, whenReleased_keeps fun h => h⟩
  | registerWriteIgnored offset value =>
    exact ⟨_, rfl, whenReleased_keeps fun h => writeRegister_bounded h offset value⟩

end

/-- Settles O54: a claim reaches the ports by placements, which keep within the free places, and by the records of
the frames received, the frames sent and the port's states, each within its bounds. -/
theorem stepKeepsPortsBounded : Obligations.StepKeepsPortsBounded := fun _ _ h hstep =>
  step_keeps_of_exec (P := PortsBounded) (fun _ _ h => h) (fun c s => exec_bounded s c) h hstep

end Sys2Proof.Machine
end

section
/-! SUPPORT. Frames that arrive and frames that leave (O12, O13, O14, O17, O18): each kind of frame by the state of its
port. -/

namespace Sys2Proof.Machine

/-! ## Arrivals (R120) -/

section
variable {s : State} {p : PortId} {f : Frame}

/-- The four arrivals act alike, by the frame's own words (log 20). -/
theorem exec_arrivals (h : s.resetHeld = false) (p : PortId) (f : Frame) :
    exec (.readyReceived p f) s = .next (s.receive p f) ∧ exec (.creditReceived p f) s = .next (s.receive p f) ∧
    exec (.reinitReceived p f) s = .next (s.receive p f) ∧
    exec (.agentMessageArrival p f) s = .next (s.receive p f) := by
  have hrun : Host.Outcome.next (φ := Fault) (ρ := Refusal) (s.whenReleased fun t => t.receive p f)
      = .next (s.receive p f) := by rw [whenReleased_of_released h]
  exact ⟨hrun, hrun, hrun, hrun⟩

theorem receive_of_listening (h : (s.port p).state = .training ∨ (s.port p).state = .up) :
    s.receive p f = match decodeFrame f with
      | .bad kind => s.violation p kind
      | .ready count => s.receiveReady p count
      | .credit count => s.receiveCredit p count
      | .reinit => s.receiveReinit p
      | .agent m => s.receiveAgent p m := if_pos h.symm

theorem receive_of_deaf (h : (s.port p).state = .reinit ∨ (s.port p).state = .disabled) : s.receive p f = s := by
  refine if_neg fun hup => ?_
  rcases h with h | h <;> rw [h] at hup <;> exact hup.elim nofun nofun

theorem receiveReady_first {n : Nat} (h : (s.port p).state = .training) (hsent : (s.port p).readySent = false) :
    s.receiveReady p n = s.setPort p { s.port p with partnerReady := true, partnerCredits := n } := by
  have hnot : ¬ ((s.setPort p { s.port p with partnerReady := true, partnerCredits := n }).port p).readySent
      = true := by rw [State.setPort_port, if_pos rfl]; simp [hsent]
  unfold State.receiveReady
  rw [if_pos h]
  exact if_neg hnot

theorem receiveReady_second {n : Nat} (h : (s.port p).state = .training) (hsent : (s.port p).readySent = true) :
    s.receiveReady p n
      = (s.setPort p { s.port p with partnerReady := true, partnerCredits := n }).enterUp p := by
  have hsent' : ((s.setPort p { s.port p with partnerReady := true, partnerCredits := n }).port p).readySent
      = true := by rw [State.setPort_port, if_pos rfl]; exact hsent
  unfold State.receiveReady
  rw [if_pos h]
  exact if_pos hsent'

end

/-- Settles O12: the READY is written to the port's record, and with both READYs there the port enters UP. -/
theorem readyArrivesInTraining : Obligations.ReadyArrivesInTraining := by
  intro s p f n hreset htraining hf
  have hreceive : s.receive p f = s.receiveReady p n := by rw [receive_of_listening (.inl htraining), hf]
  rw [(exec_arrivals hreset p f).1, hreceive]
  refine ⟨fun hsent => by rw [receiveReady_first htraining hsent], fun hsent => ?_⟩
  rw [receiveReady_second htraining hsent]
  refine ⟨_, rfl, enterUp_only _ p, fun q hq => ?_, ?_⟩
  · rw [enterUp_port, if_neg hq, State.setPort_port, if_neg hq]
  · rw [enterUp_port, if_pos rfl, State.setPort_port, if_pos rfl]
    rfl

/-- Settles O13: a CREDIT within the bound is counted, and a REINIT clears the record or is the entry into REINIT. -/
theorem creditAndReinitArrive : Obligations.CreditAndReinitArrive := by
  intro s p f hreset
  obtain ⟨_, hcredit, hreinit, _⟩ := exec_arrivals hreset p f
  refine ⟨fun n hup hf hsum => ?_, fun htraining hf => ?_, fun hup hf => ?_⟩
  · rw [hcredit, receive_of_listening (.inr hup), hf]
    refine congrArg Host.Outcome.next ?_
    dsimp only
    exact (if_neg (Nat.not_lt.mpr hsum)).trans (if_pos hup)
  · rw [hreinit, receive_of_listening (.inl htraining), hf]
    refine congrArg Host.Outcome.next ?_
    dsimp only
    exact if_neg (by rw [htraining]; exact nofun)
  · have hreceive : s.receive p f = s.enterReinit p .training := by
      rw [receive_of_listening (.inr hup), hf]
      exact if_pos hup
    obtain ⟨hchange, hbank⟩ := enterReinit_flags s p .training
    exact ⟨_, by rw [hreinit, hreceive], rfl, enterReinit_port s p .training, hchange, hbank⟩

/-- Settles O14: a credit is left, so the message is no OVERRUN; in REINIT and DISABLED nothing is looked at. -/
theorem messagesJoinOrAreDiscarded : Obligations.MessagesJoinOrAreDiscarded := by
  intro s p f
  refine ⟨fun m hreset hup hf hroom => ?_, fun hdown => ?_⟩
  · have hcredit : creditsAtPartner (s.port p) ≠ 0 := fun h =>
      Nat.not_le.mpr hroom ((creditsAtPartner_eq_zero_iff _).mp h)
    obtain ⟨_, _, _, harrival⟩ := exec_arrivals hreset p f
    rw [harrival, receive_of_listening (.inr hup), hf]
    refine congrArg Host.Outcome.next ?_
    dsimp only
    exact (if_pos hup).trans (if_neg hcredit)
  · have hrun : Host.Outcome.next (φ := Fault) (ρ := Refusal) (s.whenReleased fun t => t.receive p f) = .next s := by
      refine congrArg Host.Outcome.next ?_
      unfold State.whenReleased
      dsimp only
      rw [receive_of_deaf hdown, ite_self]
    exact ⟨hrun, hrun, hrun, hrun⟩

/-! ## Departures (R112, R113, R119) -/

theorem readyFrame_eq : readyFrame = buildFrame 0x01 0 [16] := rfl

theorem creditFrame_eq (n : Nat) : creditFrame n = buildFrame 0x02 0 [BitVec.ofNat 32 n] := by
  simp [creditFrame, wordOf]

section
variable {s : State} {p : PortId}

theorem exec_readyDeparture (h : Serving s) (htraining : (s.port p).state = .training)
    (hsent : (s.port p).readySent = false) : exec (.readyDeparture p) s = .next
      (if (s.port p).partnerReady then (s.setLane p readyFrame).enterUp p
        else (s.setLane p readyFrame).setPort p { s.port p with readySent := true }) := by
  refine congrArg Host.Outcome.next ((whenServing_of_serving h _).trans ?_)
  dsimp only
  rw [if_pos ⟨htraining, hsent⟩]

theorem exec_reinitDeparture_training (h : s.resetHeld = false) (hreinit : (s.port p).state = .reinit)
    (hdestination : (s.port p).destination = .training) :
    exec (.reinitDeparture p) s = .next ((s.setLane p reinitFrame).enterTraining p) := by
  refine congrArg Host.Outcome.next ((whenReleased_of_released h _).trans ((if_pos hreinit).trans ?_))
  rw [hdestination]

theorem exec_reinitDeparture_disabled (h : s.resetHeld = false) (hreinit : (s.port p).state = .reinit)
    (hdestination : (s.port p).destination = .disabled) :
    exec (.reinitDeparture p) s = .next
      { (s.setLane p reinitFrame).setPort p { s.port p with state := .disabled } with portChange := true } := by
  refine congrArg Host.Outcome.next ((whenReleased_of_released h _).trans ((if_pos hreinit).trans ?_))
  dsimp only
  split
  · next htraining =>
    rw [hdestination] at htraining
    cases htraining
  · rfl

/-- A port UP with a frame on its lane. -/
theorem setLane_enterUp (f : Frame) : (s.setLane p f).enterUp p =
      { s with ports := ((s.setLane p f).enterUp p).ports, lanes := ((s.setLane p f).enterUp p).lanes,
               portChange := true } ∧
    ((s.setLane p f).enterUp p).lane p = f := by
  have honly := enterUp_only (s.setLane p f) p
  have hlanes : ((s.setLane p f).enterUp p).lanes = (s.setLane p f).lanes := by rw [honly]
  refine ⟨by rw [hlanes]; exact honly, ?_⟩
  rw [State.lane_eq, hlanes, ← State.lane_eq, State.setLane_lane, if_pos rfl]

theorem enterTraining_eq (hdestination : (s.port p).destination = .training) : s.enterTraining p
    = { s.setPort p ⟨.training, .training, false, false, [], [], 0, 0⟩ with portChange := true } := by
  rw [← hdestination]
  rfl

theorem exec_creditDeparture (h : s.resetHeld = false) (hup : (s.port p).state = .up)
    (howed : 0 < (s.port p).returnedOwed) : exec (.creditDeparture p) s = .next
      ((s.setLane p (creditFrame (s.port p).returnedOwed)).setPort p { s.port p with returnedOwed := 0 }) := by
  refine congrArg Host.Outcome.next ((whenReleased_of_released h _).trans ?_)
  dsimp only
  rw [if_pos ⟨hup, howed⟩]

theorem exec_outboundDeparture_stays (h : s.resetHeld = false)
    (hstays : ¬ ((s.port p).state = .up ∧ (s.port p).returnedOwed = 0 ∧ 0 < (s.port p).partnerCredits)) :
    exec (.outboundDeparture p) s = .next s := by
  refine congrArg Host.Outcome.next ((whenReleased_of_released h _).trans ?_)
  dsimp only
  split
  · rfl
  · rw [if_neg hstays]

theorem exec_outboundDeparture_leaves (h : s.resetHeld = false) {m : OutMsg} {rest : List OutMsg}
    (hout : (s.port p).outbound = m :: rest)
    (hleaves : (s.port p).state = .up ∧ (s.port p).returnedOwed = 0 ∧ 0 < (s.port p).partnerCredits) :
    exec (.outboundDeparture p) s = .next ((s.setLane p (outFrame m)).setPort p
      { s.port p with outbound := rest, partnerCredits := (s.port p).partnerCredits - 1 }) := by
  refine congrArg Host.Outcome.next ((whenReleased_of_released h _).trans ?_)
  dsimp only
  rw [hout]
  exact if_pos hleaves

end

/-- Settles O17: the part's READY leaves once, before or after its partner's; its REINIT leaves for either
destination. -/
theorem readyAndReinitDepart : Obligations.ReadyAndReinitDepart := by
  intro s p
  refine ⟨fun hserving htraining hsent => ?_, fun hreset hreinit => ?_⟩
  · rw [exec_readyDeparture hserving htraining hsent]
    refine ⟨fun hpartner => ?_, fun hpartner => ?_⟩
    · rw [hpartner, readyFrame_eq]
      rfl
    · rw [if_pos hpartner]
      obtain ⟨honly, hlane⟩ := setLane_enterUp (s := s) (p := p) readyFrame
      refine ⟨_, rfl, honly, hlane, fun q hq => ?_, ?_⟩
      · rw [enterUp_port, if_neg hq]
        rfl
      · rw [enterUp_port, if_pos rfl]
        rfl
  · refine ⟨exec_reinitDeparture_disabled hreset hreinit, fun hdestination => ?_⟩
    rw [exec_reinitDeparture_training hreset hreinit hdestination,
      enterTraining_eq (s := s.setLane p reinitFrame) hdestination]
    rfl

/-- Settles O18: while returned credits are owed they leave first, and without a partner credit the head stays. -/
theorem creditsAndMessagesDepart : Obligations.CreditsAndMessagesDepart := by
  intro s p hreset hup
  refine ⟨fun howed => ⟨?_, ?_⟩, fun m rest hout howed => ⟨fun hcredit => ?_, fun hcredit => ?_⟩⟩
  · rw [exec_creditDeparture hreset hup howed, creditFrame_eq]
  · exact exec_outboundDeparture_stays hreset fun h => Nat.ne_of_gt howed h.2.1
  · exact exec_outboundDeparture_leaves hreset hout ⟨hup, howed, hcredit⟩
  · exact exec_outboundDeparture_stays hreset fun h => Nat.ne_of_gt h.2.2 hcredit

end Sys2Proof.Machine
end

section
/-! SUPPORT. Protocol violations (O15): the receiver's checks on the words of a frame, in their order (R120), and the
claim of a violation (R124). -/

namespace Sys2Proof.Machine

/-! ## The claim (R120, R124) -/

/-- The violation that what checks 1 to 4 make of a frame is on a port's record; none when it is good. -/
def Received.violationOn (r : Port) : Received → Option Violation
  | .bad v => some v
  | .ready _ => if r.state = .up then some .outOfState else none
  | .credit n =>
    if 32 < r.partnerCredits + n then some .badField
    else if r.state = .training then some .outOfState else none
  | .reinit => none
  | .agent _ =>
    if r.state = .training then some .outOfState
    else if 16 ≤ r.inbound.length + r.returnedOwed then some .overrun else none

theorem Received.violationOn_ready (r : Port) (n : Nat) :
    (Received.ready n).violationOn r = if r.state = .up then some .outOfState else none := rfl

theorem Received.violationOn_credit (r : Port) (n : Nat) : (Received.credit n).violationOn r =
    if 32 < r.partnerCredits + n then some .badField
    else if r.state = .training then some .outOfState else none := rfl

theorem Received.violationOn_agent (r : Port) (m : InMsg) : (Received.agent m).violationOn r =
    if r.state = .training then some .outOfState
    else if 16 ≤ r.inbound.length + r.returnedOwed then some .overrun else none := rfl

theorem violationOf_eq (r : Port) (f : Frame) : violationOf r f = (decodeFrame f).violationOn r := by
  unfold violationOf
  cases decodeFrame f <;> rfl

section
variable {s : State} {p : PortId} {v : Violation}

theorem receiveReady_violation {n : Nat} (h : (Received.ready n).violationOn (s.port p) = some v) :
    s.receiveReady p n = s.violation p v := by
  rw [Received.violationOn_ready] at h
  split at h
  · next hup =>
    cases h
    exact if_neg (by rw [hup]; exact nofun)
  · cases h

theorem receiveCredit_violation {n : Nat} (h : (Received.credit n).violationOn (s.port p) = some v) :
    s.receiveCredit p n = s.violation p v := by
  rw [Received.violationOn_credit] at h
  split at h
  · next hsum =>
    cases h
    exact if_pos hsum
  · next hsum =>
    split at h
    · next htraining =>
      cases h
      exact (if_neg hsum).trans (if_neg (by rw [htraining]; exact nofun))
    · cases h

theorem receiveAgent_violation {m : InMsg} (hstate : (s.port p).state = .training ∨ (s.port p).state = .up)
    (h : (Received.agent m).violationOn (s.port p) = some v) : s.receiveAgent p m = s.violation p v := by
  rw [Received.violationOn_agent] at h
  split at h
  · next htraining =>
    cases h
    exact if_neg (by rw [htraining]; exact nofun)
  · next htraining =>
    split at h
    · next hfull =>
      cases h
      exact (if_pos (hstate.resolve_left htraining)).trans
        (if_pos ((creditsAtPartner_eq_zero_iff _).mpr hfull))
    · cases h

/-- A frame that is a violation takes the port down, whichever check it fails. -/
theorem receive_violation {f : Frame} (hstate : (s.port p).state = .training ∨ (s.port p).state = .up)
    (h : violationOf (s.port p) f = some v) : s.receive p f = s.violation p v := by
  rw [violationOf_eq] at h
  rw [receive_of_listening hstate]
  cases hf : decodeFrame f with
  | bad w =>
    rw [hf] at h
    cases h
    rfl
  | ready n => exact receiveReady_violation (hf ▸ h)
  | credit n => exact receiveCredit_violation (hf ▸ h)
  | reinit =>
    rw [hf] at h
    cases h
  | agent m => exact receiveAgent_violation hstate (hf ▸ h)

end

/-! ## The CRC-16 (R176) -/

theorem crcBit_eq (r : BitVec 16) (b : Bool) :
    crcBit r b = (r <<< 1) ^^^ (if r.getLsbD 15 = b then (0 : BitVec 16) else 0x1021) := by
  unfold crcBit
  dsimp only
  by_cases h : r.getLsbD 15 = b
  · rw [if_pos h, if_neg (by rw [h, bne_self_eq_false]; exact nofun)]
    exact BitVec.xor_zero.symm
  · rw [if_neg h, if_pos (bne_iff_ne.mpr h)]

/-- One word more is 32 shifts more, from bit 31 down. -/
theorem crc16_append (ws : List Word) (w : Word) : crc16 (ws ++ [w]) =
    (List.range 32).foldl (fun (r : BitVec 16) i => (r <<< 1) ^^^
      (if r.getLsbD 15 = w.getLsbD (31 - i) then (0 : BitVec 16) else 0x1021)) (crc16 ws) := by
  have hbits : (fun (r : BitVec 16) i => crcBit r (w.getLsbD (31 - i))) = fun (r : BitVec 16) i =>
      (r <<< 1) ^^^ (if r.getLsbD 15 = w.getLsbD (31 - i) then (0 : BitVec 16) else 0x1021) :=
    funext fun r => funext fun i => crcBit_eq r _
  rw [← hbits, crc16, List.foldl_append, List.foldl_cons, List.foldl_nil]
  rfl

/-! ## Fields of a frame (R176, R177) -/

theorem bits_toNat (w : Word) (lo n : Nat) : (bits w lo n).toNat = w.toNat / 2 ^ lo % 2 ^ n := by
  rw [bits, BitVec.extractLsb'_toNat, Nat.shiftRight_eq_div_pow]

/-- The frame's kind code is the top of its header. -/
theorem frameKind_toNat (f : Frame) : (bits (headerWord f) 24 8).toNat = (f.headD 0).toNat / 2 ^ 24 := by
  have hlt := (f.headD 0).isLt
  rw [bits_toNat, headerWord]
  omega

/-- Check 1: the last word carries the CRC-16 of the words before it, and there are some. -/
theorem checkHolds_iff (f : Frame) : checkHolds f = true ↔
    ∃ ws check, f = ws ++ [check] ∧ ws ≠ [] ∧ check.toNat % 2 ^ 16 = (crc16 ws).toNat := by
  have hword : ∀ (ws : List Word) (check : Word), checkHolds (ws ++ [check]) = true ↔
      ws ≠ [] ∧ check.toNat % 2 ^ 16 = (crc16 ws).toNat := fun ws check => by
    have hlength : 2 ≤ (ws ++ [check]).length ↔ ws ≠ [] := by
      rw [List.length_append, List.length_singleton, ← List.length_pos_iff]
      omega
    have hcrc : crc16 ws = bits check 0 16 ↔ check.toNat % 2 ^ 16 = (crc16 ws).toNat := by
      rw [← BitVec.toNat_inj, bits_toNat, pow_zero, Nat.div_one, eq_comm]
    unfold checkHolds
    rw [Bool.and_eq_true, decide_eq_true_eq, beq_iff_eq, hlength, List.dropLast_concat,
      List.getLastD_concat, hcrc]
  constructor
  · intro h
    rcases List.eq_nil_or_concat' f with rfl | ⟨ws, check, rfl⟩
    · cases h
    · obtain ⟨hne, hcheck⟩ := (hword ws check).mp h
      exact ⟨ws, check, rfl, hne, hcheck⟩
  · rintro ⟨ws, check, rfl, hne, hcheck⟩
    exact (hword ws check).mpr ⟨hne, hcheck⟩

/-- The kinds that the part receives, each with its length. -/
def receivedKinds : List (Nat × Nat) :=
  [(0x01, 3), (0x02, 3), (0x03, 2), (0x10, 2), (0x11, 2), (0x12, 4), (0x13, 3), (0x14, 3)]

theorem receivedLength_of_mem {x : Nat × Nat} (h : x ∈ receivedKinds) : receivedLength x.1 = some x.2 := by
  revert x
  decide

theorem receivedLength_of_unknown {kind : Nat} (h : ∀ x ∈ receivedKinds, kind ≠ x.1) :
    receivedLength kind = none := by
  simp only [receivedKinds, List.forall_mem_cons, List.not_mem_nil, false_implies, implies_true, and_true] at h
  obtain ⟨h1, h2, h3, h10, h11, h12, h13, h14⟩ := h
  simp only [receivedLength]

/-! ## Checks 1 to 4, in order -/

section
variable {f : Frame}

theorem decodeFrame_of_check (h : checkHolds f = false) : decodeFrame f = .bad .check := by
  unfold decodeFrame
  rw [h]
  rfl

theorem decodeFrame_of_unknown (h : checkHolds f = true)
    (hkind : ∀ x ∈ receivedKinds, (f.headD 0).toNat / 2 ^ 24 ≠ x.1) : decodeFrame f = .bad .unknownKind := by
  unfold decodeFrame
  dsimp only
  rw [if_pos h, frameKind_toNat, receivedLength_of_unknown hkind]

theorem decodeFrame_of_known (h : checkHolds f = true) {x : Nat × Nat} (hx : x ∈ receivedKinds)
    (hkind : (f.headD 0).toNat / 2 ^ 24 = x.1) :
    decodeFrame f = if (f.headD 0).toNat / 2 ^ 8 % 2 ^ 8 = x.2 ∧ f.length = x.2 then decodeBody x.1 f
      else .bad .badLength := by
  unfold decodeFrame
  dsimp only
  rw [if_pos h, frameKind_toNat, hkind, receivedLength_of_mem hx]
  dsimp only
  rw [bits_toNat, headerWord]

theorem creditCount_eq (f : Frame) : creditCount f
    = if (f.getD 1 0).toNat % 2 ^ 8 = 0 ∨ 32 < (f.getD 1 0).toNat % 2 ^ 8 then none
      else some ((f.getD 1 0).toNat % 2 ^ 8) := by
  unfold creditCount
  dsimp only
  rw [bits_toNat, pow_zero, Nat.div_one, bodyWord, Config.outboundPlaces]
  by_cases h : 1 ≤ (f.getD 1 0).toNat % 2 ^ 8 ∧ (f.getD 1 0).toNat % 2 ^ 8 ≤ 32
  · rw [if_pos h, if_neg (by omega)]
  · rw [if_neg h, if_pos (by omega)]

/-- The kinds of the agent messages. -/
def agentKinds : List Nat := [0x10, 0x11, 0x12, 0x13, 0x14]

theorem accessKindOf_eq_none_iff (b : BitVec 2) : accessKindOf b = none ↔ b.toNat = 3 := by
  revert b
  decide

/-- A field of an agent message of the kind is out of range. -/
abbrev AgentFieldFails (kind : Nat) (f : Frame) : Prop :=
  32 ≤ (f.headD 0).toNat / 2 ^ 16 % 2 ^ 8 ∨ kind = 0x12 ∧ (f.getD 1 0).toNat / 2 ^ 4 % 2 ^ 2 = 3

theorem agentMessage_eq_none_iff {kind : Nat} (hkind : kind ∈ agentKinds) (a : AgentId) (f : Frame) :
    agentMessage kind a f = none ↔ kind = 0x12 ∧ (f.getD 1 0).toNat / 2 ^ 4 % 2 ^ 2 = 3 := by
  have htranslate : agentMessage 0x12 a f = none ↔ (f.getD 1 0).toNat / 2 ^ 4 % 2 ^ 2 = 3 := by
    rw [← bits_toNat, ← accessKindOf_eq_none_iff]
    simp [agentMessage, translateRequest, bodyWord]
  simp only [agentKinds, List.mem_cons, List.not_mem_nil, or_false] at hkind
  obtain rfl | rfl | rfl | rfl | rfl := hkind
  · exact ⟨nofun, fun h => absurd h.1 (by decide)⟩
  · exact ⟨nofun, fun h => absurd h.1 (by decide)⟩
  · rw [htranslate]
    exact ⟨fun h => ⟨rfl, h⟩, fun h => h.2⟩
  · exact ⟨nofun, fun h => absurd h.1 (by decide)⟩
  · exact ⟨nofun, fun h => absurd h.1 (by decide)⟩

theorem decodeBody_agentKind {kind : Nat} (hkind : kind ∈ agentKinds) (f : Frame) :
    decodeBody kind f = match finOf 32 (bits (headerWord f) 16 8).toNat with
      | none => .bad .badField
      | some a => match agentMessage kind a f with
        | some m => .agent m
        | none => .bad .badField := by
  simp only [agentKinds, List.mem_cons, List.not_mem_nil, or_false] at hkind
  obtain rfl | rfl | rfl | rfl | rfl := hkind <;> rfl

theorem decodeBody_agent {kind : Nat} (hkind : kind ∈ agentKinds) :
    (AgentFieldFails kind f → decodeBody kind f = .bad .badField) ∧
    (¬ AgentFieldFails kind f → ∃ m, decodeBody kind f = .agent m) := by
  have hnumber : (bits (headerWord f) 16 8).toNat = (f.headD 0).toNat / 2 ^ 16 % 2 ^ 8 := bits_toNat _ _ _
  rw [decodeBody_agentKind hkind, hnumber]
  by_cases ha : (f.headD 0).toNat / 2 ^ 16 % 2 ^ 8 < 32
  · rw [show finOf 32 _ = some ⟨_, ha⟩ from dif_pos ha]
    dsimp only
    cases hm : agentMessage kind ⟨_, ha⟩ f with
    | none =>
      have hfails := (agentMessage_eq_none_iff hkind _ f).mp hm
      exact ⟨fun _ => rfl, fun h => absurd (.inr hfails) h⟩
    | some m =>
      refine ⟨fun h => ?_, fun _ => ⟨m, rfl⟩⟩
      rcases h with h | h
      · exact absurd ha (Nat.not_lt.mpr h)
      · rw [(agentMessage_eq_none_iff hkind _ f).mpr h] at hm
        cases hm
  · rw [show finOf 32 _ = none from dif_neg ha]
    exact ⟨fun _ => rfl, fun h => absurd (.inl (Nat.le_of_not_lt ha)) h⟩

end

/-! ## The violation of a frame whose kind and length are good -/

/-- A field of a frame of the kind is out of range (check 4), but for the partner credits. -/
abbrev FieldFails (kind : Nat) (f : Frame) : Prop :=
  (kind = 0x01 ∨ kind = 0x02) ∧ ((f.getD 1 0).toNat % 2 ^ 8 = 0 ∨ 32 < (f.getD 1 0).toNat % 2 ^ 8) ∨
    0x10 ≤ kind ∧ 32 ≤ (f.headD 0).toNat / 2 ^ 16 % 2 ^ 8 ∨
      kind = 0x12 ∧ (f.getD 1 0).toNat / 2 ^ 4 % 2 ^ 2 = 3

/-- The violation, by the kind of the frame: check 4, and then checks 5 and 6 on the port's record. -/
structure BodyViolation (r : Port) (kind : Nat) (f : Frame) : Prop where
  field : FieldFails kind f → (decodeBody kind f).violationOn r = some .badField
  ready : ¬ FieldFails kind f → kind = 0x01 →
    (decodeBody kind f).violationOn r = if r.state = .up then some .outOfState else none
  credit : ¬ FieldFails kind f → kind = 0x02 → (decodeBody kind f).violationOn r =
    if 32 < r.partnerCredits + (f.getD 1 0).toNat % 2 ^ 8 then some .badField
    else if r.state = .training then some .outOfState else none
  reinit : ¬ FieldFails kind f → kind = 0x03 → (decodeBody kind f).violationOn r = none
  agent : ¬ FieldFails kind f → 0x10 ≤ kind → (decodeBody kind f).violationOn r =
    if r.state = .training then some .outOfState
    else if 16 ≤ r.inbound.length + r.returnedOwed then some .overrun else none

section
variable (r : Port) (f : Frame)

theorem bodyViolation_ready : BodyViolation r 0x01 f := by
  have hfails : FieldFails 0x01 f ↔ (f.getD 1 0).toNat % 2 ^ 8 = 0 ∨ 32 < (f.getD 1 0).toNat % 2 ^ 8 := by
    unfold FieldFails
    omega
  have hbody : decodeBody 0x01 f = match creditCount f with
    | some n => .ready n
    | none => .bad .badField := rfl
  refine ⟨fun h => ?_, fun h _ => ?_, fun _ => nofun, fun _ => nofun, fun _ h => absurd h (by decide)⟩
  · rw [hbody, creditCount_eq, if_pos (hfails.mp h)]
    rfl
  · rw [hbody, creditCount_eq, if_neg (mt hfails.mpr h)]
    rfl

theorem bodyViolation_credit : BodyViolation r 0x02 f := by
  have hfails : FieldFails 0x02 f ↔ (f.getD 1 0).toNat % 2 ^ 8 = 0 ∨ 32 < (f.getD 1 0).toNat % 2 ^ 8 := by
    unfold FieldFails
    omega
  have hbody : decodeBody 0x02 f = match creditCount f with
    | some n => .credit n
    | none => .bad .badField := rfl
  refine ⟨fun h => ?_, fun _ => nofun, fun h _ => ?_, fun _ => nofun, fun _ h => absurd h (by decide)⟩
  · rw [hbody, creditCount_eq, if_pos (hfails.mp h)]
    rfl
  · rw [hbody, creditCount_eq, if_neg (mt hfails.mpr h)]
    rfl

theorem bodyViolation_reinit : BodyViolation r 0x03 f := by
  have hgood : ¬ FieldFails 0x03 f := by
    unfold FieldFails
    omega
  exact ⟨fun h => absurd h hgood, fun _ => nofun, fun _ => nofun, fun _ _ => rfl, fun _ h => absurd h (by decide)⟩

theorem bodyViolation_agent {kind : Nat} (hkind : kind ∈ agentKinds) : BodyViolation r kind f := by
  have hlow : 0x10 ≤ kind ∧ kind ≠ 0x01 ∧ kind ≠ 0x02 ∧ kind ≠ 0x03 := by
    revert kind
    decide
  obtain ⟨hagent, h1, h2, h3⟩ := hlow
  have hfails : FieldFails kind f ↔ AgentFieldFails kind f := by
    unfold FieldFails AgentFieldFails
    omega
  obtain ⟨hbad, hgood⟩ := decodeBody_agent (f := f) hkind
  refine ⟨fun h => ?_, fun _ h => absurd h h1, fun _ h => absurd h h2, fun _ h => absurd h h3, fun h _ => ?_⟩
  · rw [hbad (hfails.mp h)]
    rfl
  · obtain ⟨m, hm⟩ := hgood (mt hfails.mpr h)
    rw [hm]
    rfl

theorem bodyViolation_of_mem {x : Nat × Nat} (hx : x ∈ receivedKinds) : BodyViolation r x.1 f := by
  simp only [receivedKinds, List.mem_cons, List.not_mem_nil, or_false] at hx
  obtain rfl | rfl | rfl | hx := hx
  · exact bodyViolation_ready r f
  · exact bodyViolation_credit r f
  · exact bodyViolation_reinit r f
  · refine bodyViolation_agent r f ?_
    obtain rfl | rfl | rfl | rfl | rfl := hx <;> decide

end

/-- Settles O15: the claim is the entry into REINIT with the LINK bank written first, and the violation of a frame is
read off the first of its checks that fails. -/
theorem violationTakesThePortDown : Obligations.ViolationTakesThePortDown := by
  refine ⟨fun s p f v hreset hstate hv => ?_, ⟨rfl, crc16_append⟩, ?_⟩
  · obtain ⟨hready, hcredit, hreinit, hmessage⟩ := exec_arrivals hreset p f
    have hreceive := receive_violation hstate hv
    rw [hreceive] at hready hcredit hreinit hmessage
    obtain ⟨hchange, hbank⟩ :=
      enterReinit_flags { s with linkBank := recordLink s.linkBank p v } p .training
    exact ⟨_, hmessage, hready, hcredit, hreinit, rfl, enterReinit_port _ p .training, hchange, hbank⟩
  · intro r f
    dsimp only
    rw [← checkHolds_iff, Bool.not_eq_true]
    refine ⟨fun h => ?_, fun h hkind => ?_, fun x hx h hkind => ?_⟩
    · rw [violationOf_eq, decodeFrame_of_check h]
      rfl
    · rw [violationOf_eq, decodeFrame_of_unknown h hkind]
      rfl
    · have hbody := bodyViolation_of_mem r f hx
      rw [violationOf_eq, decodeFrame_of_known h hx hkind]
      refine ⟨fun hlength => ?_, fun hheader hlength => ?_⟩
      · rw [if_neg (not_and_or.mpr hlength)]
        rfl
      · rw [if_pos ⟨hheader, hlength⟩, hkind]
        exact ⟨hbody.field, fun hgood =>
          ⟨hbody.ready hgood, hbody.credit hgood, hbody.reinit hgood, hbody.agent hgood⟩⟩

end Sys2Proof.Machine
end

section
/-! SUPPORT. The refill (O19): one run over everything that may wait for a place, in the order of R123. Each item has
at most one message waiting, and placing it changes what waits for no other item. -/

namespace Sys2Proof.Machine

/-! ## What may wait on a port (R37, R81) -/

/-- What may wait for a free place: the owed message of an agent, or the unsent RECALL of a slot to an agent. -/
inductive Waiting where
  | owed (a : AgentId)
  | unsent (k : SlotId) (a : AgentId)

/-- Everything that may wait, in the order of R123. -/
def allWaiting : List Waiting :=
  allAgents.map Waiting.owed ++ allSlots.flatMap fun k => allAgents.map (Waiting.unsent k)

theorem allWaiting_nodup : allWaiting.Nodup := by
  have hagents : allAgents.Nodup := List.nodup_finRange 32
  have hunsent : ∀ k, (allAgents.map (Waiting.unsent k)).Nodup := fun k =>
    hagents.map fun _ _ h => (Waiting.unsent.inj h).2
  refine List.nodup_append.mpr ⟨hagents.map fun _ _ h => Waiting.owed.inj h, ?_, ?_⟩
  · refine List.nodup_flatMap.mpr ⟨fun k _ => hunsent k, (List.nodup_finRange 8).imp fun hkj x hx hy => ?_⟩
    obtain ⟨_, _, rfl⟩ := List.mem_map.mp hx
    obtain ⟨_, _, h⟩ := List.mem_map.mp hy
    exact hkj (Waiting.unsent.inj h).1.symm
  · intro x hx y hy
    obtain ⟨_, _, rfl⟩ := List.mem_map.mp hx
    obtain ⟨_, _, hy⟩ := List.mem_flatMap.mp hy
    obtain ⟨_, _, rfl⟩ := List.mem_map.mp hy
    exact nofun

/-- The message of an item that waits on port `p`. -/
def State.waits (s : State) (p : PortId) : Waiting → Option OutMsg
  | .owed a =>
    if (s.agent a).port = some p then
      if (s.agent a).welcomeOwed ∧ (s.agent a).state = .active then some (.welcome a .accepted)
      else if (s.agent a).fenceOwed then some (.fence a) else none
    else none
  | .unsent k a =>
    if (s.slot k).state = .active ∧ hasAgent (s.slot k).unsent a = true ∧ (s.agent a).port = some p then
      some (s.recallMessage k a false)
    else none

theorem waitingOn_eq (s : State) (p : PortId) : s.waitingOn p = allWaiting.filterMap (s.waits p) := by
  have hslot : ∀ k, (allAgents.map (Waiting.unsent k)).filterMap (s.waits p) =
      if (s.slot k).state = .active then
        ((agentsOf (s.slot k).unsent).filter fun a => (s.agent a).port = some p).map fun a =>
          s.recallMessage k a false
      else [] := fun k => by
    rw [List.filterMap_map]
    by_cases hk : (s.slot k).state = .active
    · rw [if_pos hk, agentsOf, List.filter_filter, ← List.filterMap_eq_map, ← List.filterMap_eq_filter,
        List.filterMap_filterMap]
      refine List.filterMap_congr fun a _ => ?_
      by_cases hp : (s.agent a).port = some p <;> by_cases ha : hasAgent (s.slot k).unsent a = true <;>
        simp [State.waits, hk, hp, ha, Option.guard]
    · rw [if_neg hk]
      refine List.filterMap_eq_nil_iff.mpr fun a _ => ?_
      exact if_neg fun h => hk h.1
  unfold State.waitingOn allWaiting
  rw [List.filterMap_append, List.filterMap_map, List.filterMap_flatMap]
  refine congrArg₂ (· ++ ·) rfl (List.flatMap_congr fun k _ => (hslot k).symm)

/-! ## An item served -/

/-- The item's mark cleared. -/
def State.marked (s : State) : Waiting → State
  | .owed a =>
    let r := s.agent a
    s.setAgent a (if r.welcomeOwed ∧ r.state = .active then { r with welcomeOwed := false }
      else { r with fenceOwed := false })
  | .unsent k a => s.setSlot k { s.slot k with unsent := dropAgent (s.slot k).unsent a }

/-- The refill at one item: its message is placed where one waits and the port has room. -/
def State.servedItem (s : State) (p : PortId) (x : Waiting) : State :=
  match s.waits p x with
  | some m => if s.HasRoom p then (s.marked x).place p m else s
  | none => s

section
variable {s t u : State} {p : PortId}

theorem refillOwed_eq (s : State) (p : PortId) (a : AgentId) : s.refillOwed p a = s.servedItem p (.owed a) := by
  unfold State.refillOwed State.servedItem
  dsimp only
  by_cases hp : (s.agent a).port = some p
  · have hwaits : s.waits p (.owed a) =
        if (s.agent a).welcomeOwed ∧ (s.agent a).state = .active then some (.welcome a .accepted)
        else if (s.agent a).fenceOwed then some (.fence a) else none := if_pos hp
    rw [hwaits]
    by_cases hroom : s.HasRoom p
    · rw [if_pos ⟨hp, hroom⟩]
      unfold State.marked
      dsimp only
      by_cases hw : (s.agent a).welcomeOwed = true ∧ (s.agent a).state = .active
      · rw [if_pos hw, if_pos hw]
        dsimp only
        rw [if_pos hroom, if_pos hw]
      · rw [if_neg hw, if_neg hw]
        by_cases hf : (s.agent a).fenceOwed = true
        · rw [if_pos hf, if_pos hf]
          dsimp only
          rw [if_pos hroom, if_neg hw]
        · rw [if_neg hf, if_neg hf]
    · rw [if_neg fun h => hroom h.2]
      split
      · rw [if_neg hroom]
      · rfl
  · rw [if_neg fun h => hp h.1, show s.waits p (.owed a) = none from if_neg hp]

theorem refillRecall_eq {k : SlotId} (hk : (s.slot k).state = .active) {a : AgentId}
    (ha : hasAgent (s.slot k).unsent a = true) (p : PortId) :
    s.refillRecall p k a = s.servedItem p (.unsent k a) := by
  unfold State.refillRecall State.servedItem
  by_cases hp : (s.agent a).port = some p
  · rw [show s.waits p (.unsent k a) = some (s.recallMessage k a false) from if_pos ⟨hk, ha, hp⟩]
    by_cases hroom : s.HasRoom p
    · have hroom' : (s.marked (.unsent k a)).HasRoom p := hroom
      dsimp only
      rw [if_pos ⟨hp, hroom⟩, if_pos hroom, place_of_room hroom, place_of_room hroom']
      rfl
    · dsimp only
      rw [if_neg fun h => hroom h.2, if_neg hroom]
  · rw [if_neg fun h => hp h.1, show s.waits p (.unsent k a) = none from if_neg fun h => hp h.2.2]

theorem marked_port (s : State) (x : Waiting) (q : PortId) : (s.marked x).port q = s.port q := by
  cases x <;> rfl

theorem marked_windows (s : State) (x : Waiting) : (s.marked x).windows = s.windows := by
  cases x <;> rfl

theorem marked_hasRoom (x : Waiting) (h : s.HasRoom p) : (s.marked x).HasRoom p := by
  rw [State.HasRoom, marked_port]
  exact h

/-- The port with the item's message offered to it. -/
theorem servedItem_port (s : State) (p : PortId) (x : Waiting) : (s.servedItem p x).port p =
    match s.waits p x with
    | some m => (s.port p).offered m
    | none => s.port p := by
  unfold State.servedItem
  split
  · next m _ =>
    split
    · next hroom => rw [place_port, if_pos ⟨rfl, marked_hasRoom x hroom⟩, marked_port, offered_of_room hroom]
    · next hroom => rw [offered_of_no_room hroom]
  · rfl

theorem recallMessage_congr {k : SlotId} (hserial : (t.slot k).serial = (s.slot k).serial)
    (hsubject : (t.slot k).subject = (s.slot k).subject) (hwindows : t.windows = s.windows) (a : AgentId)
    (reminder : Bool) : t.recallMessage k a reminder = s.recallMessage k a reminder := by
  have hscope : ∀ z, t.recallScope z = s.recallScope z := fun z => by
    cases z <;> simp only [State.recallScope, State.window_eq, hwindows]
  rw [State.recallMessage, State.recallMessage, hserial, hsubject, hscope]

theorem place_waits (s : State) (p q : PortId) (m : OutMsg) (x : Waiting) :
    (s.place q m).waits p x = s.waits p x := by
  have hagent := place_agent s q m
  have hslot := place_slot s q m
  have hmessage : ∀ k a, (s.place q m).recallMessage k a false = s.recallMessage k a false := fun k a =>
    recallMessage_congr (by rw [hslot]) (by rw [hslot]) (place_windows s q m) a false
  cases x with
  | owed a => simp only [State.waits, hagent]
  | unsent k a => simp only [State.waits, hagent, hslot, hmessage]

/-- Clearing an item's mark changes what waits for no other item. -/
theorem marked_waits {x y : Waiting} (h : y ≠ x) (s : State) (p : PortId) :
    (s.marked x).waits p y = s.waits p y := by
  cases x with
  | owed a =>
    have hagent : ∀ b, b ≠ a → (s.marked (.owed a)).agent b = s.agent b := fun b hb =>
      (State.setAgent_agent _ _ _ _).trans (if_neg hb)
    have hbound : ∀ b, ((s.marked (.owed a)).agent b).port = (s.agent b).port := fun b => by
      by_cases hb : b = a
      · subst hb
        unfold State.marked
        dsimp only
        rw [State.setAgent_agent, if_pos rfl]
        split <;> rfl
      · rw [hagent b hb]
    cases y with
    | owed b =>
      have hb : b ≠ a := fun hba => h (congrArg Waiting.owed hba)
      simp only [State.waits, hagent b hb]
    | unsent k b =>
      have hslot : (s.marked (.owed a)).slot k = s.slot k := rfl
      have hmessage : (s.marked (.owed a)).recallMessage k b false = s.recallMessage k b false :=
        recallMessage_congr rfl rfl rfl b false
      simp only [State.waits, hbound, hslot, hmessage]
  | unsent j a =>
    have hagent : ∀ b, (s.marked (.unsent j a)).agent b = s.agent b := fun _ => rfl
    cases y with
    | owed b => simp only [State.waits, hagent]
    | unsent k b =>
      have hslot : (s.marked (.unsent j a)).slot k = if k = j
          then { s.slot j with unsent := dropAgent (s.slot j).unsent a } else s.slot k := State.setSlot_slot s j k _
      by_cases hk : k = j
      · subst hk
        have hb : b ≠ a := fun hba => h (congrArg (Waiting.unsent k) hba)
        rw [if_pos rfl] at hslot
        have hmessage : (s.marked (.unsent k a)).recallMessage k b false = s.recallMessage k b false :=
          recallMessage_congr (by rw [hslot]) (by rw [hslot]) (marked_windows s _) b false
        have hunsent : hasAgent (dropAgent (s.slot k).unsent a) b = hasAgent (s.slot k).unsent b := by
          simp [hasAgent_dropAgent, hb]
        simp only [State.waits, hagent, hslot, hmessage, hunsent]
      · rw [if_neg hk] at hslot
        have hmessage : (s.marked (.unsent j a)).recallMessage k b false = s.recallMessage k b false :=
          recallMessage_congr (by rw [hslot]) (by rw [hslot]) (marked_windows s _) b false
        simp only [State.waits, hagent, hslot, hmessage]

/-- A FENCE is owed to no ACTIVE agent (R37). -/
def FencesFit (s : State) : Prop := ∀ a, (s.agent a).state = .active → (s.agent a).fenceOwed = false

/-- An item whose mark is cleared waits no more: an agent that was owed a WELCOME is owed no FENCE beside it. -/
theorem marked_waits_self (h : FencesFit s) (x : Waiting) (p : PortId) : (s.marked x).waits p x = none := by
  cases x with
  | owed a =>
    unfold State.marked
    dsimp only
    split
    · next hw =>
      have hf := h a hw.2
      simp [State.waits, hf]
    · next hw =>
      have hw' : ¬ ((s.agent a).welcomeOwed = true ∧ (s.agent a).state = .active) := hw
      simp only [State.waits, State.setAgent_agent, if_pos, hw', if_false, Bool.false_eq_true, ite_self]
  | unsent k a =>
    have hslot : (s.marked (.unsent k a)).slot k = { s.slot k with unsent := dropAgent (s.slot k).unsent a } :=
      (State.setSlot_slot s k k _).trans (if_pos rfl)
    refine if_neg fun hunsent => ?_
    have hmem := hunsent.2.1
    rw [hslot, hasAgent_dropAgent, Bool.and_eq_true, decide_eq_true_eq] at hmem
    exact hmem.2 rfl

theorem servedItem_waits {x y : Waiting} (h : y ≠ x) (s : State) (p : PortId) :
    (s.servedItem p x).waits p y = s.waits p y := by
  unfold State.servedItem
  split
  · split
    · rw [place_waits, marked_waits h]
    · rfl
  · rfl

/-! ## What a refill leaves as it was -/

/-- `t` is `s` in the course of the refill of port `p`. -/
structure Refilled (p : PortId) (s t : State) : Prop where
  only : t = { s with agents := t.agents, slots := t.slots, ports := t.ports }
  port : ∀ q, q ≠ p → t.port q = s.port q
  agent : ∀ a, t.agent a = { s.agent a with
    welcomeOwed := (t.agent a).welcomeOwed, fenceOwed := (t.agent a).fenceOwed }
  welcome : ∀ a, (t.agent a).welcomeOwed = true → (s.agent a).welcomeOwed = true
  fence : ∀ a, (t.agent a).fenceOwed = true → (s.agent a).fenceOwed = true
  inactive : ∀ a, (s.agent a).state ≠ .active → (t.agent a).welcomeOwed = (s.agent a).welcomeOwed
  unbound : ∀ a, (s.agent a).port ≠ some p → t.agent a = s.agent a
  slot : ∀ k, t.slot k = { s.slot k with unsent := (t.slot k).unsent }
  idle : ∀ k, (s.slot k).state ≠ .active → t.slot k = s.slot k
  unsent : ∀ k a, hasAgent (t.slot k).unsent a = true → hasAgent (s.slot k).unsent a = true
  kept : ∀ k a, (s.agent a).port ≠ some p → hasAgent (t.slot k).unsent a = hasAgent (s.slot k).unsent a

theorem Refilled.refl (p : PortId) (s : State) : Refilled p s s :=
  ⟨rfl, fun _ _ => rfl, fun _ => rfl, fun _ h => h, fun _ h => h, fun _ _ => rfl, fun _ _ => rfl, fun _ => rfl,
    fun _ _ => rfl, fun _ _ h => h, fun _ _ _ => rfl⟩

theorem Refilled.trans (h : Refilled p s t) (h' : Refilled p t u) : Refilled p s u where
  only := by rw [h'.only, h.only]
  port q hq := (h'.port q hq).trans (h.port q hq)
  agent a := by rw [h'.agent a, h.agent a]
  welcome a ha := h.welcome a (h'.welcome a ha)
  fence a ha := h.fence a (h'.fence a ha)
  inactive a ha := (h'.inactive a (by rw [h.agent a]; exact ha)).trans (h.inactive a ha)
  unbound a ha := (h'.unbound a (by rw [h.unbound a ha]; exact ha)).trans (h.unbound a ha)
  slot k := by rw [h'.slot k, h.slot k]
  idle k hk := (h'.idle k (by rw [h.idle k hk]; exact hk)).trans (h.idle k hk)
  unsent k a ha := h.unsent k a (h'.unsent k a ha)
  kept k a ha := (h'.kept k a (by rw [h.unbound a ha]; exact ha)).trans (h.kept k a ha)

theorem Refilled.fencesFit (h : Refilled p s t) (hs : FencesFit s) : FencesFit t := fun a ha => by
  rw [h.agent a] at ha
  rw [Bool.eq_false_iff]
  intro hf
  exact absurd (h.fence a hf) (by rw [hs a ha]; exact nofun)

theorem place_refilled (s : State) (p : PortId) (m : OutMsg) : Refilled p s (s.place p m) := by
  have hagent := place_agent s p m
  have hslot := place_slot s p m
  refine ⟨?_, fun q hq => ?_, fun a => ?_, fun a => ?_, fun a => ?_, fun a _ => ?_, fun a _ => hagent a, fun k => ?_,
    fun k _ => hslot k, fun k a => ?_, fun k a _ => ?_⟩
  · rw [place_only_ports]
  · rw [place_port, if_neg fun h => hq h.1]
  · rw [hagent]
  · rw [hagent]; exact id
  · rw [hagent]; exact id
  · rw [hagent]
  · rw [hslot]
  · rw [hslot]; exact id
  · rw [hslot]

/-- An owed message paid clears its flag, of an agent bound to the port. -/
theorem setAgent_refilled {a : AgentId} {r : Agent} (hbound : (s.agent a).port = some p)
    (hrecord : r = { s.agent a with welcomeOwed := r.welcomeOwed, fenceOwed := r.fenceOwed })
    (hwelcome : r.welcomeOwed = true → (s.agent a).welcomeOwed = true)
    (hfence : r.fenceOwed = true → (s.agent a).fenceOwed = true)
    (hinactive : (s.agent a).state ≠ .active → r.welcomeOwed = (s.agent a).welcomeOwed) :
    Refilled p s (s.setAgent a r) := by
  have hagent : ∀ b, (s.setAgent a r).agent b = if b = a then r else s.agent b := fun b =>
    State.setAgent_agent s a b r
  refine ⟨rfl, fun _ _ => rfl, fun b => ?_, fun b => ?_, fun b => ?_, fun b hb => ?_, fun b hb => ?_, fun _ => rfl,
    fun _ _ => rfl, fun _ _ h => h, fun _ _ _ => rfl⟩
  all_goals rw [hagent b]
  all_goals by_cases hba : b = a
  · rw [if_pos hba, hba]
    exact hrecord
  · rw [if_neg hba]
  · rw [if_pos hba, hba]
    exact hwelcome
  · rw [if_neg hba]
    exact id
  · rw [if_pos hba, hba]
    exact hfence
  · rw [if_neg hba]
    exact id
  · rw [if_pos hba]
    rw [hba] at hb ⊢
    exact hinactive hb
  · rw [if_neg hba]
  · rw [hba] at hb
    exact absurd hbound hb
  · rw [if_neg hba]

/-- A RECALL sent leaves the unsent set of an ACTIVE slot, for an agent bound to the port. -/
theorem setSlot_refilled {k : SlotId} {a : AgentId} (hactive : (s.slot k).state = .active)
    (hbound : (s.agent a).port = some p) :
    Refilled p s (s.setSlot k { s.slot k with unsent := dropAgent (s.slot k).unsent a }) := by
  have hslot : ∀ j, (s.setSlot k { s.slot k with unsent := dropAgent (s.slot k).unsent a }).slot j = if j = k
      then { s.slot k with unsent := dropAgent (s.slot k).unsent a } else s.slot j := fun j =>
    State.setSlot_slot s k j _
  refine ⟨rfl, fun _ _ => rfl, fun _ => rfl, fun _ h => h, fun _ h => h, fun _ _ => rfl, fun _ _ => rfl, fun j => ?_,
    fun j hj => ?_, fun j b => ?_, fun j b hb => ?_⟩
  all_goals rw [hslot j]
  all_goals by_cases hjk : j = k
  · rw [if_pos hjk, hjk]
  · rw [if_neg hjk]
  · rw [hjk] at hj
    exact absurd hactive hj
  · rw [if_neg hjk]
  · rw [if_pos hjk, hjk]
    dsimp only
    rw [hasAgent_dropAgent, Bool.and_eq_true]
    exact fun h => h.1
  · rw [if_neg hjk]
    exact id
  · have hba : b ≠ a := fun hba => hb (hba ▸ hbound)
    rw [if_pos hjk, hjk]
    simp [hasAgent_dropAgent, hba]
  · rw [if_neg hjk]

theorem marked_refilled {x : Waiting} {m : OutMsg} (h : s.waits p x = some m) : Refilled p s (s.marked x) := by
  cases x with
  | owed a =>
    have hbound : (s.agent a).port = some p := by
      by_contra hn
      rw [show s.waits p (.owed a) = none from if_neg hn] at h
      cases h
    unfold State.marked
    dsimp only
    split
    · next hw => exact setAgent_refilled hbound rfl nofun id fun hn => absurd hw.2 hn
    · exact setAgent_refilled hbound rfl id nofun fun _ => rfl
  | unsent k a =>
    by_cases hw : (s.slot k).state = .active ∧ hasAgent (s.slot k).unsent a = true ∧ (s.agent a).port = some p
    · obtain ⟨hactive, _, hbound⟩ := hw
      exact setSlot_refilled hactive hbound
    · rw [show s.waits p (.unsent k a) = none from if_neg hw] at h
      cases h

theorem servedItem_refilled (s : State) (p : PortId) (x : Waiting) : Refilled p s (s.servedItem p x) := by
  unfold State.servedItem
  split
  · next hm =>
    split
    · exact (marked_refilled hm).trans (place_refilled _ p _)
    · exact .refl p s
  · exact .refl p s

/-! ## The run (R123) -/

/-- The refill of port `p` over the items listed. -/
def State.serveItems (s : State) (p : PortId) (l : List Waiting) : State := l.foldl (fun t x => t.servedItem p x) s

theorem serveItems_refilled (s : State) (p : PortId) (l : List Waiting) : Refilled p s (s.serveItems p l) :=
  foldl_invariant (Refilled p s) _ (fun _ x h => h.trans (servedItem_refilled _ p x)) l s (.refl p s)

theorem serveItems_waits {x : Waiting} {l : List Waiting} (h : x ∉ l) (s : State) (p : PortId) :
    (s.serveItems p l).waits p x = s.waits p x := by
  induction l generalizing s with
  | nil => rfl
  | cons y l ih =>
    obtain ⟨hy, hl⟩ := List.ne_and_not_mem_of_not_mem_cons h
    exact (ih hl (s.servedItem p y)).trans (servedItem_waits hy s p)

theorem filterMap_waits_servedItem {x : Waiting} {l : List Waiting} (h : x ∉ l) (s : State) (p : PortId) :
    l.filterMap ((s.servedItem p x).waits p) = l.filterMap (s.waits p) :=
  List.filterMap_congr fun y hy => servedItem_waits (by rintro rfl; exact h hy) s p

/-- Every message that waits is offered to the port, in the order of the items. -/
theorem serveItems_port {l : List Waiting} (hl : l.Nodup) (s : State) (p : PortId) :
    (s.serveItems p l).port p = (l.filterMap (s.waits p)).foldl Port.offered (s.port p) := by
  induction l generalizing s with
  | nil => rfl
  | cons x l ih =>
    obtain ⟨hx, hl⟩ := List.nodup_cons.mp hl
    rw [show s.serveItems p (x :: l) = (s.servedItem p x).serveItems p l from rfl, ih hl,
      filterMap_waits_servedItem hx, servedItem_port]
    cases hm : s.waits p x with
    | some m => rw [List.filterMap_cons_some hm, List.foldl_cons]
    | none => rw [List.filterMap_cons_none hm]

/-- What waits after the run is what found no place. -/
theorem serveItems_rest {l : List Waiting} (hl : l.Nodup) (hup : (s.port p).state = .up) (h : FencesFit s) :
    l.filterMap ((s.serveItems p l).waits p)
      = (l.filterMap (s.waits p)).drop (32 - (s.port p).outbound.length) := by
  induction l generalizing s with
  | nil => exact List.drop_nil.symm
  | cons x l ih =>
    obtain ⟨hx, hl⟩ := List.nodup_cons.mp hl
    have hport := servedItem_port s p x
    have hrun : s.serveItems p (x :: l) = (s.servedItem p x).serveItems p l := rfl
    have hself := serveItems_waits hx (s.servedItem p x) p
    have hup' : ((s.servedItem p x).port p).state = .up := by
      rw [hport]
      cases s.waits p x with
      | some m => exact (Port.offered_state _ m).trans hup
      | none => exact hup
    have hrest := ih hl hup' ((servedItem_refilled s p x).fencesFit h)
    rw [filterMap_waits_servedItem hx] at hrest
    rw [hrun]
    cases hm : s.waits p x with
    | none =>
      have hsame : s.servedItem p x = s := by unfold State.servedItem; rw [hm]
      rw [hsame] at hself hrest ⊢
      rw [List.filterMap_cons_none (hself.trans hm), List.filterMap_cons_none hm, hrest]
    | some m =>
      rw [List.filterMap_cons_some hm]
      by_cases hroom : s.HasRoom p
      · have hplaced : s.servedItem p x = (s.marked x).place p m := by
          unfold State.servedItem
          rw [hm]
          exact if_pos hroom
        have hnone : (s.servedItem p x).waits p x = none := by
          rw [hplaced, place_waits, marked_waits_self h]
        have hlength : ((s.servedItem p x).port p).outbound.length = (s.port p).outbound.length + 1 := by
          rw [hport, hm]
          dsimp only
          rw [offered_of_room hroom, List.length_append, List.length_singleton]
        have hlt : (s.port p).outbound.length < 32 := hroom.2
        have hplaces : 32 - (s.port p).outbound.length = (32 - ((s.port p).outbound.length + 1)) + 1 := by omega
        rw [List.filterMap_cons_none (hself.trans hnone), hrest, hlength, hplaces, List.drop_succ_cons]
      · have hsame : s.servedItem p x = s := by
          unfold State.servedItem
          rw [hm]
          exact if_neg hroom
        have hfull : 32 - (s.port p).outbound.length = 0 :=
          Nat.sub_eq_zero_of_le (Nat.le_of_not_lt fun hlt => hroom ⟨hup, hlt⟩)
        rw [hsame, hfull, List.drop_zero] at hrest
        rw [hsame] at hself ⊢
        rw [List.filterMap_cons_some (hself.trans hm), hrest, hfull, List.drop_zero]

/-! ## The refill as one run -/

/-- The RECALLs of a slot are served item by item: each leaves the unsent set with its own placement alone. -/
theorem foldl_refillRecall_eq {k : SlotId} (p : PortId) {l : List AgentId} (hl : l.Nodup) (x : AgentSet)
    (hk : (s.slot k).state = .active) (hx : ∀ a ∈ l, hasAgent (s.slot k).unsent a = hasAgent x a) :
    (l.filter fun a => hasAgent x a).foldl (fun t a => t.refillRecall p k a) s
      = s.serveItems p (l.map (Waiting.unsent k)) := by
  induction l generalizing s with
  | nil => rfl
  | cons a l ih =>
    obtain ⟨ha, hl⟩ := List.nodup_cons.mp hl
    have hrun : s.serveItems p ((a :: l).map (Waiting.unsent k))
        = (s.servedItem p (.unsent k a)).serveItems p (l.map (Waiting.unsent k)) := rfl
    have hmem := hx a List.mem_cons_self
    rw [hrun]
    by_cases hxa : hasAgent x a = true
    · have hstate : ((s.servedItem p (.unsent k a)).slot k).state = .active := by
        rw [(servedItem_refilled s p _).slot k]
        exact hk
      rw [List.filter_cons_of_pos hxa, List.foldl_cons, refillRecall_eq hk (hmem.trans hxa)]
      refine ih hl hstate fun b hb => ?_
      have hba : b ≠ a := fun hba => ha (hba ▸ hb)
      have hmarked : ((s.marked (.unsent k a)).slot k).unsent = dropAgent (s.slot k).unsent a := by
        rw [show s.marked (.unsent k a) = s.setSlot k _ from rfl, State.setSlot_slot, if_pos rfl]
      rw [← hx b (List.mem_cons_of_mem _ hb)]
      unfold State.servedItem
      split
      · split
        · rw [place_slot, hmarked]
          simp [hasAgent_dropAgent, hba]
        · rfl
      · rfl
    · have hnone : s.waits p (.unsent k a) = none := if_neg fun h => hxa (hmem.symm.trans h.2.1)
      have hsame : s.servedItem p (.unsent k a) = s := by unfold State.servedItem; rw [hnone]
      rw [List.filter_cons_of_neg hxa, hsame]
      exact ih hl hk fun b hb => hx b (List.mem_cons_of_mem _ hb)

theorem refillSlot_eq (s : State) (p : PortId) (k : SlotId) :
    s.refillSlot p k = s.serveItems p (allAgents.map (Waiting.unsent k)) := by
  unfold State.refillSlot
  split
  · next hk => exact foldl_refillRecall_eq p (List.nodup_finRange 32) (s.slot k).unsent hk fun _ _ => rfl
  · next hk =>
    refine (foldl_fixed _ s _ fun x hx => ?_).symm
    obtain ⟨a, _, rfl⟩ := List.mem_map.mp hx
    have hnone : s.waits p (.unsent k a) = none := if_neg fun h => hk h.1
    unfold State.servedItem
    rw [hnone]

theorem exec_refill (h : Serving s) (p : PortId) : exec (.refill p) s = .next (s.serveItems p allWaiting) := by
  have howed : ∀ (l : List AgentId) (t : State),
      l.foldl (fun t a => t.refillOwed p a) t = t.serveItems p (l.map Waiting.owed) := fun l t => by
    unfold State.serveItems
    rw [List.foldl_map]
    simp only [refillOwed_eq]
  have hslots : ∀ (l : List SlotId) (t : State), l.foldl (fun t k => t.refillSlot p k) t
      = t.serveItems p (l.flatMap fun k => allAgents.map (Waiting.unsent k)) := fun l t => by
    induction l generalizing t with
    | nil => rfl
    | cons k l ih =>
      rw [List.foldl_cons, ih, refillSlot_eq, List.flatMap_cons]
      exact (List.foldl_append ..).symm
  refine congrArg Host.Outcome.next ((whenServing_of_serving h _).trans ?_)
  rw [howed, hslots]
  exact (List.foldl_append ..).symm

end

/-- Settles O19: the refill is one run over all that may wait; each item's message is offered to the port, and only
what finds no place waits on. -/
theorem refillServesTheWaiting : Obligations.RefillServesTheWaiting := by
  intro s p hserving hup
  have hrefilled := serveItems_refilled s p allWaiting
  have hport : (s.serveItems p allWaiting).port p = (s.port p).loaded (s.waitingOn p) := by
    rw [serveItems_port allWaiting_nodup, Port.foldl_offered, if_pos hup, waitingOn_eq]
  refine ⟨_, exec_refill hserving p, hrefilled.only, hport, hrefilled.port, fun a => ?_, fun k => ?_, fun howed => ?_⟩
  · exact ⟨hrefilled.agent a, hrefilled.welcome a, hrefilled.fence a, hrefilled.inactive a, hrefilled.unbound a⟩
  · exact ⟨hrefilled.slot k, hrefilled.idle k, fun a => ⟨hrefilled.unsent k a, hrefilled.kept k a⟩⟩
  · have hfit : FencesFit s := fun a hactive => by
      rw [Bool.eq_false_iff]
      intro hfence
      rcases (howed a).1 hfence with hfenced | ⟨hpurging, _⟩
      · rw [hactive] at hfenced
        cases hfenced
      · rw [hactive] at hpurging
        cases hpurging
    rw [waitingOn_eq, waitingOn_eq, serveItems_rest allWaiting_nodup hup hfit]

end Sys2Proof.Machine
end

section
/-! SUPPORT. The agents of a port that leaves UP (R41, R102, R113): the purges that start, one after the other in
ascending agent number, seen as one change of the directory (O16). -/

namespace Sys2Proof.Machine

/-! ## Purges toward ABSENT that start one after the other -/

/-- `t` is `s` after the purge starts toward ABSENT of the agents that `gone` tells, but for the agent table. -/
structure PurgesBegun (gone : AgentId → Bool) (s t : State) : Prop where
  only : t = { s with
    windows := t.windows, agents := t.agents, pool := t.pool, parkOrders := t.parkOrders,
    replayList := t.replayList, slots := t.slots, ports := t.ports, purgeSet := t.purgeSet }
  port : ∀ q, t.port q = s.port q
  entry : ∀ e, t.entry e = if (s.entry e).state ≠ .free ∧ gone (s.entry e).request.agent = true then
    { s.entry e with state := .free } else s.entry e
  lists : PoolListed s → PoolListed t ∧ ∀ x, t.entriesOn x
    = (s.entriesOn x).filter fun e => !gone (s.entry e).request.agent
  listed : ∀ b, hasAgent t.purgeSet b = (hasAgent s.purgeSet b || gone b)
  slot : ∀ k, t.slot k = { s.slot k with pending := (t.slot k).pending, unsent := (t.slot k).unsent }
  slot_idle : ∀ k, (s.slot k).state ≠ .active → t.slot k = s.slot k
  pending : ∀ k, (s.slot k).state = .active → ∀ b, hasAgent (t.slot k).pending b
    = (hasAgent (s.slot k).pending b && !gone b)
  unsent : ∀ k, (s.slot k).state = .active → ∀ b, hasAgent (t.slot k).unsent b
    = (hasAgent (s.slot k).unsent b && !(gone b && hasAgent (s.slot k).pending b))
  window : ∀ w, t.window w = { s.window w with holders := (t.window w).holders }
  holders : ∀ w b, hasAgent (t.window w).holders b
    = (hasAgent (s.window w).holders b && !(gone b && decide (s.AwaitedAt b w)))

theorem PurgesBegun.refl (s : State) : PurgesBegun (fun _ => false) s s where
  only := rfl
  port _ := rfl
  entry _ := (if_neg fun h => nomatch h.2).symm
  lists h := ⟨h, fun _ => (List.filter_eq_self.mpr fun _ _ => rfl).symm⟩
  listed _ := (Bool.or_false _).symm
  slot _ := rfl
  slot_idle _ _ := rfl
  pending _ _ _ := (Bool.and_true _).symm
  unsent _ _ _ := (Bool.and_true _).symm
  window _ := rfl
  holders _ _ := (Bool.and_true _).symm

namespace PurgesBegun

variable {gone : AgentId → Bool} {s t : State}

/-- The agent table is left open. -/
theorem setAgent (h : PurgesBegun gone s t) (a : AgentId) (r : Agent) : PurgesBegun gone s (t.setAgent a r) where
  only := congrArg (fun x : State => x.setAgent a r) h.only
  port := h.port
  entry := h.entry
  lists hs := ⟨(h.lists hs).1, (h.lists hs).2⟩
  listed := h.listed
  slot := h.slot
  slot_idle := h.slot_idle
  pending := h.pending
  unsent := h.unsent
  window := h.window
  holders := h.holders

theorem slot_state (h : PurgesBegun gone s t) (k : SlotId) : (t.slot k).state = (s.slot k).state := by rw [h.slot]

/-- A purge start takes no other agent out of a change. -/
theorem awaitedAt_iff (h : PurgesBegun gone s t) {b : AgentId} (hb : gone b = false) (w : WindowId) :
    t.AwaitedAt b w ↔ s.AwaitedAt b w := by
  refine exists_congr fun k => ?_
  rw [h.slot_state]
  refine and_congr_right fun hactive => ?_
  have hsubject : (t.slot k).subject = (s.slot k).subject := by rw [h.slot]
  rw [h.pending k hactive, hb, hsubject]
  simp

theorem awaitedHoldings (h : PurgesBegun gone s t) {b : AgentId} (hb : gone b = false) :
    t.awaitedHoldings b = s.awaitedHoldings b := by
  refine List.countP_congr fun w _ => ?_
  rw [decide_eq_true_iff, decide_eq_true_iff, h.holders, h.awaitedAt_iff hb, hb]
  simp

/-- The purge start of one agent more, where `gone` tells the agents before it. -/
theorem start (h : PurgesBegun gone s t) {a : AgentId} (ha : gone a = false) :
    PurgesBegun (fun b => gone b || decide (b = a)) s (t.purgeStart a .absent) := by
  have hstart := purgeStart_started t a .absent
  have hlisted : PoolListed s → PoolListed (t.purgeStart a .absent) := fun hs => purgeStart_listed (h.lists hs).1 a _
  generalize t.purgeStart a .absent = u at hstart hlisted
  have hset : u.purgeSet = addAgent t.purgeSet a := by rw [hstart.only]
  have hawaited : ∀ w, t.AwaitedAt a w ↔ s.AwaitedAt a w := h.awaitedAt_iff ha
  refine
    { only := by rw [hstart.only, h.only]
      port := fun q => ((hstart.port q).trans (if_neg fun hf => nomatch hf.1)).trans (h.port q)
      entry := fun e => ?_
      lists := fun hs => ⟨hlisted hs, fun x => ?_⟩
      listed := fun b => by rw [hset, hasAgent_addAgent, h.listed, Bool.or_assoc]
      slot := fun k => ?_
      slot_idle := fun k hk => ?_
      pending := fun k hk b => ?_
      unsent := fun k hk b => ?_
      window := fun w => ?_
      holders := fun w b => ?_ }
  · rw [hstart.entry, h.entry]
    by_cases hfree : (s.entry e).state = .free <;> by_cases hgone : gone (s.entry e).request.agent = true <;>
      simp [hfree, hgone]
  · rw [hstart.lists (h.lists hs).1, (h.lists hs).2, List.filter_filter]
    refine List.filter_congr fun e _ => ?_
    have hagent : (t.entry e).request = (s.entry e).request := by
      rw [h.entry]
      split
      · rfl
      · rfl
    rw [hagent, Bool.not_or, Bool.and_comm, decide_not]
  · rw [hstart.slot]
    split
    · rw [h.slot]
    · exact h.slot k
  · rw [hstart.slot, h.slot_state, if_neg fun hx => hk hx.1]
    exact h.slot_idle k hk
  · rw [hstart.slot, h.slot_state, h.pending k hk, ha]
    by_cases hpends : hasAgent (s.slot k).pending a = true
    · rw [if_pos ⟨hk, by simp [hpends]⟩, hasAgent_dropAgent, h.pending k hk]
      by_cases hb : b = a <;> simp [hb]
    · rw [if_neg fun hx => by simp [hpends] at hx, h.pending k hk]
      by_cases hb : b = a
      · simp [hb, hpends]
      · simp [hb]
  · rw [hstart.slot, h.slot_state, h.pending k hk, ha]
    by_cases hpends : hasAgent (s.slot k).pending a = true
    · rw [if_pos ⟨hk, by simp [hpends]⟩, hasAgent_dropAgent, h.unsent k hk]
      by_cases hb : b = a
      · simp [hb, hpends]
      · simp [hb]
    · rw [if_neg fun hx => by simp [hpends] at hx, h.unsent k hk]
      by_cases hb : b = a
      · simp [hb, hpends]
      · simp [hb]
  · rw [hstart.window]
    split
    · rw [h.window]
    · exact h.window w
  · rw [hstart.window]
    by_cases haw : s.AwaitedAt a w
    · rw [if_pos ((hawaited w).mpr haw), hasAgent_dropAgent, h.holders]
      by_cases hb : b = a
      · subst hb
        rw [decide_eq_true haw]
        simp
      · simp [hb]
    · rw [if_neg fun hx => haw ((hawaited w).mp hx), h.holders]
      by_cases hb : b = a
      · subst hb
        rw [decide_eq_false haw]
        simp
      · simp [hb]

end PurgesBegun

/-! ## The record of an agent whose port leaves UP (R41, R37) -/

/-- Agent `a` is bound to `p` and ACTIVE: the loss of `p` starts its purge. -/
abbrev State.Lost (s : State) (p : PortId) (a : AgentId) : Prop :=
  (s.agent a).port = some p ∧ (s.agent a).state = .active

/-- The record of `a` after the loss of port `p`. -/
def State.portLost (s : State) (p : PortId) (a : AgentId) : Agent :=
  let x := s.agent a
  if x.port = some p then
    if x.state = .active then
      { x with state := .purging, target := some .absent, welcomeOwed := false, fenceOwed := false
               held := x.held - s.awaitedHoldings a }
    else if x.state = .purging ∧ x.target = some .active then
      { x with target := some .absent, welcomeOwed := false, fenceOwed := false }
    else { x with fenceOwed := false }
  else x

section
variable {s t : State} {p : PortId} {a : AgentId}

theorem portLost_of_lost (h : s.Lost p a) : s.portLost p a = { s.agent a with
    state := .purging, target := some .absent, welcomeOwed := false, fenceOwed := false
    held := (s.agent a).held - s.awaitedHoldings a } := by
  rw [State.portLost, if_pos h.1, if_pos h.2]

theorem portLost_of_toActive (hport : (s.agent a).port = some p) (hstate : (s.agent a).state = .purging)
    (htarget : (s.agent a).target = some .active) : s.portLost p a
      = { s.agent a with target := some .absent, welcomeOwed := false, fenceOwed := false } := by
  rw [State.portLost, if_pos hport, if_neg (by rw [hstate]; exact nofun), if_pos ⟨hstate, htarget⟩]

theorem portLost_of_kept (hport : (s.agent a).port = some p) (hactive : (s.agent a).state ≠ .active)
    (hkept : (s.agent a).state ≠ .purging ∨ (s.agent a).target ≠ some .active) :
    s.portLost p a = { s.agent a with fenceOwed := false } := by
  rw [State.portLost, if_pos hport, if_neg hactive, if_neg (by tauto)]

theorem portLost_of_unbound (hport : (s.agent a).port ≠ some p) : s.portLost p a = s.agent a := by
  rw [State.portLost, if_neg hport]

theorem losePort_of_unbound (hport : (s.agent a).port ≠ some p) : s.losePort p a = s := if_neg hport

/-- The loss of a port starts a purge, for an agent that was ACTIVE. -/
theorem losePort_of_lost (h : s.Lost p a) : s.losePort p a = (s.purgeStart a .absent).setAgent a
    { (s.purgeStart a .absent).agent a with fenceOwed := false } := by
  rw [State.losePort, if_pos h.1]
  simp only [State.depart, h.2]

theorem agent_ne_initial {r : Agent} (h : r.state = .purging) : r ≠ Agent.initial := by
  rintro rfl
  cases h

/-- Of two writes of records of a PURGING agent, the second stands. -/
theorem setAgent_setAgent (s : State) (a : AgentId) {r r' : Agent} (h : r.state = .purging)
    (h' : r'.state = .purging) : (s.setAgent a r).setAgent a r' = s.setAgent a r' :=
  congrArg (fun x => ({ s with agents := x } : State))
    (tableSet_tableSet s.agents a (agent_ne_initial h) (agent_ne_initial h'))

/-- It is a matter of the agent's record alone, for one that was not. -/
theorem losePort_of_bound (hport : (s.agent a).port = some p) (hactive : (s.agent a).state ≠ .active) :
    s.losePort p a = s.setAgent a (s.portLost p a) := by
  rw [State.losePort, if_pos hport]
  by_cases htoActive : (s.agent a).state = .purging ∧ (s.agent a).target = some .active
  · have hdepart : s.depart a = s.setAgent a { s.agent a with target := some .absent, welcomeOwed := false } := by
      simp only [State.depart, htoActive.1, if_pos htoActive.2]
    dsimp only
    rw [portLost_of_toActive hport htoActive.1 htoActive.2, hdepart, State.setAgent_agent,
      if_pos rfl]
    exact setAgent_setAgent s a htoActive.1 htoActive.1
  · have hkept := not_and_or.mp htoActive
    have hdepart : s.depart a = s := by
      unfold State.depart
      dsimp only
      split
      · next h => exact absurd h hactive
      · next h => exact if_neg (hkept.resolve_left (not_not_intro h))
      · rfl
      · rfl
    rw [portLost_of_kept hport hactive hkept, hdepart]

/-- The port is lost by the agents of the list `l`, each in its turn. -/
structure PortLeft (p : PortId) (l : List AgentId) (s t : State) : Prop where
  begun : PurgesBegun (fun a => decide (a ∈ l ∧ s.Lost p a)) s t
  agent : ∀ a, t.agent a = if a ∈ l then s.portLost p a else s.agent a

theorem PortLeft.losePort {l : List AgentId} (h : PortLeft p l s t) (ha : a ∉ l) :
    PortLeft p (a :: l) s (t.losePort p a) := by
  have hagent : t.agent a = s.agent a := (h.agent a).trans (if_neg ha)
  have hgone : decide (a ∈ l ∧ s.Lost p a) = false := decide_eq_false fun hx => ha hx.1
  have hsame : ¬ s.Lost p a → (fun b => decide (b ∈ a :: l ∧ s.Lost p b)) = fun b => decide (b ∈ l ∧ s.Lost p b) :=
    fun hno => funext fun b => by
      refine decide_eq_decide.mpr ?_
      rw [List.mem_cons]
      exact and_congr_left fun hlost => or_iff_right fun hb => hno (hb ▸ hlost)
  have hkeep : ∀ b, b ≠ a → t.agent b = if b ∈ a :: l then s.portLost p b else s.agent b := fun b hb => by
    rw [h.agent, if_congr (List.mem_cons.trans (or_iff_right hb)) rfl rfl]
  have hrecord : ∀ x : State, (∀ b, x.agent b = if b = a then s.portLost p a else t.agent b) →
      ∀ b, x.agent b = if b ∈ a :: l then s.portLost p b else s.agent b := fun x hx b => by
    rw [hx]
    split
    · next hb => rw [hb, if_pos List.mem_cons_self]
    · next hb => exact hkeep b hb
  by_cases hport : (s.agent a).port = some p
  · by_cases hactive : (s.agent a).state = .active
    · have hlost : s.Lost p a := ⟨hport, hactive⟩
      have hstart := purgeStart_started t a .absent
      have hmore : (fun b => decide (b ∈ a :: l ∧ s.Lost p b))
          = fun b => decide (b ∈ l ∧ s.Lost p b) || decide (b = a) := funext fun b => by
        by_cases hb : b = a
        · simp [hb, hport, hactive]
        · simp [hb]
      rw [losePort_of_lost (by rw [State.Lost, hagent]; exact hlost)]
      refine ⟨hmore ▸ (h.begun.start hgone).setAgent a _, hrecord _ fun b => ?_⟩
      rw [State.setAgent_agent]
      by_cases hb : b = a
      · rw [if_pos hb, if_pos hb, hstart.agent, if_pos rfl, hagent, h.begun.awaitedHoldings hgone,
          portLost_of_lost hlost]
        rfl
      · rw [if_neg hb, if_neg hb, hstart.agent, if_neg hb]
    · rw [losePort_of_bound (by rw [hagent]; exact hport) (by rw [hagent]; exact hactive)]
      have hlosesame : t.portLost p a = s.portLost p a := by simp only [State.portLost, hagent, if_neg hactive]
      refine ⟨hsame (fun hx => hactive hx.2) ▸ h.begun.setAgent a _, hrecord _ fun b => ?_⟩
      rw [State.setAgent_agent, hlosesame]
  · rw [losePort_of_unbound (by rw [hagent]; exact hport)]
    refine ⟨hsame (fun hx => hport hx.1) ▸ h.begun, hrecord t fun b => ?_⟩
    rw [portLost_of_unbound hport]
    split
    · next hb => rw [hb, hagent]
    · rfl

end

theorem foldl_losePort {s : State} {p : PortId} {l : List AgentId} (hl : l.Nodup) {done : List AgentId} {t : State}
    (h : PortLeft p done s t) (hapart : ∀ a ∈ l, a ∉ done) :
    ∃ all, (∀ a, a ∈ all ↔ a ∈ l ∨ a ∈ done) ∧ PortLeft p all s (l.foldl (fun s a => s.losePort p a) t) := by
  induction l generalizing done t with
  | nil => exact ⟨done, by simp, h⟩
  | cons a l ih =>
    obtain ⟨ha, hl⟩ := List.nodup_cons.mp hl
    obtain ⟨all, hall, hleft⟩ := ih hl (h.losePort (hapart a List.mem_cons_self)) fun b hb hmem => by
      rcases List.mem_cons.mp hmem with hba | hdone
      · exact ha (hba ▸ hb)
      · exact hapart b (List.mem_cons_of_mem a hb) hdone
    exact ⟨all, fun b => by rw [hall, List.mem_cons, List.mem_cons]; tauto, hleft⟩

/-- The loss of a port, seen at once: the purges of its ACTIVE agents start, and each agent has its new record. -/
theorem losePorts_left (s : State) (p : PortId) :
    PurgesBegun (fun a => decide (s.Lost p a)) s (s.losePorts p) ∧
      ∀ a, (s.losePorts p).agent a = s.portLost p a := by
  have hnone : PortLeft p [] s s := ⟨by simpa using PurgesBegun.refl s, fun _ => rfl⟩
  obtain ⟨all, hall, hleft⟩ := foldl_losePort (List.nodup_finRange 32) hnone fun _ _ => List.not_mem_nil
  have hmem : ∀ a, a ∈ all := fun a => (hall a).mpr (.inl (List.mem_finRange a))
  have hgone : (fun a => decide (a ∈ all ∧ s.Lost p a)) = fun a => decide (s.Lost p a) :=
    funext fun a => decide_eq_decide.mpr (and_iff_right (hmem a))
  exact ⟨hgone ▸ hleft.begun, fun a => (hleft.agent a).trans (if_pos (hmem a))⟩

/-! ## The entry into REINIT up to the claim's end (R113) -/

/-- The entry of port `p` into REINIT up to the claim's end: its link, its entries and its agents (R113). -/
def State.portPurged (s : State) (p : PortId) (d : Destination) : State :=
  ((s.discardLink p d).dropEntries fun e => e.port == p).losePorts p

theorem enterReinit_eq (s : State) (p : PortId) (d : Destination) :
    s.enterReinit p d = ((s.portPurged p d).settle none false).reconsider none := rfl

/-- The entry `e` is one that the loss of port `p` drops (R69, R70). -/
abbrev State.Dropped (s : State) (p : PortId) (e : EntryId) : Prop :=
  (s.entry e).port = p ∨ s.Lost p (s.entry e).request.agent

/-- The link is discarded and the port's entries are dropped, and the agents are as they were. -/
structure LinkLost (p : PortId) (d : Destination) (s t : State) : Prop where
  only : t = { s with
    pool := t.pool, parkOrders := t.parkOrders, replayList := t.replayList, ports := t.ports, portChange := true }
  port : ∀ q, t.port q = if q = p then reinitRecord d else s.port q
  entry : ∀ e, t.entry e = if (s.entry e).state ≠ .free ∧ (s.entry e).port = p then
    { s.entry e with state := .free } else s.entry e
  lists : PoolListed s → PoolListed t ∧ ∀ x, t.entriesOn x
    = (s.entriesOn x).filter fun e => !((s.entry e).port == p)

theorem linkLost (s : State) (p : PortId) (d : Destination) :
    LinkLost p d s ((s.discardLink p d).dropEntries fun e => e.port == p) := by
  have hport := discardLink_port s p d
  have hentry := dropEntries_entry (s.discardLink p d) fun e => e.port == p
  have hlists := fun h : PoolListed s =>
    And.intro (dropEntries_listed (s := s.discardLink p d) h fun e => e.port == p)
      (dropEntries_entriesOn (s := s.discardLink p d) h fun e => e.port == p)
  obtain ⟨pool, parkOrders, replayList, hpool⟩ := dropEntries_only_pool (s.discardLink p d) fun e => e.port == p
  generalize (s.discardLink p d).dropEntries (fun e => e.port == p) = t at *
  refine ⟨by rw [hpool]; rfl, fun q => ?_, fun e => ?_, fun h => ⟨(hlists h).1, fun x => ((hlists h).2 x).trans ?_⟩⟩
  · rw [← hport, hpool]
    rfl
  · refine (hentry e).trans ?_
    simp only [beq_iff_eq]
    rfl
  · cases x with
    | none => rfl
    | some w => rfl

/-- `u` is `s` after the entry of port `p` into REINIT, up to the claim's end. -/
structure PortPurged (p : PortId) (d : Destination) (s u : State) : Prop where
  only : u = { s with
    windows := u.windows, agents := u.agents, pool := u.pool, parkOrders := u.parkOrders,
    replayList := u.replayList, slots := u.slots, ports := u.ports, purgeSet := u.purgeSet, portChange := true }
  port : ∀ q, u.port q = if q = p then reinitRecord d else s.port q
  entry : ∀ e, u.entry e = if (s.entry e).state ≠ .free ∧ s.Dropped p e then
    { s.entry e with state := .free } else s.entry e
  lists : PoolListed s → PoolListed u ∧ ∀ x, u.entriesOn x = (s.entriesOn x).filter fun e => !decide (s.Dropped p e)
  agent : ∀ a, u.agent a = s.portLost p a
  listed : ∀ a, hasAgent u.purgeSet a = (hasAgent s.purgeSet a || decide (s.Lost p a))
  slot : ∀ k, u.slot k = { s.slot k with pending := (u.slot k).pending, unsent := (u.slot k).unsent }
  slot_idle : ∀ k, (s.slot k).state ≠ .active → u.slot k = s.slot k
  pending : ∀ k, (s.slot k).state = .active → ∀ a, hasAgent (u.slot k).pending a
    = (hasAgent (s.slot k).pending a && !decide (s.Lost p a))
  unsent : ∀ k, (s.slot k).state = .active → ∀ a, hasAgent (u.slot k).unsent a
    = (hasAgent (s.slot k).unsent a && !(decide (s.Lost p a) && hasAgent (s.slot k).pending a))
  window : ∀ w, u.window w = { s.window w with holders := (u.window w).holders }
  holders : ∀ w a, hasAgent (u.window w).holders a
    = (hasAgent (s.window w).holders a && !(decide (s.Lost p a) && decide (s.AwaitedAt a w)))

theorem portPurged (s : State) (p : PortId) (d : Destination) : PortPurged p d s (s.portPurged p d) := by
  have hlink := linkLost s p d
  rw [State.portPurged]
  generalize (s.discardLink p d).dropEntries (fun e => e.port == p) = t at hlink
  obtain ⟨hbegun, hagent⟩ := losePorts_left t p
  have honly := hlink.only
  have hagents : ∀ a, t.agent a = s.agent a := fun a => by rw [honly]; rfl
  have hslots : ∀ k, t.slot k = s.slot k := fun k => by rw [honly]; rfl
  have hwindows : ∀ w, t.window w = s.window w := fun w => by rw [honly]; rfl
  have hset : t.purgeSet = s.purgeSet := by rw [honly]
  have hawaited : ∀ a w, t.AwaitedAt a w ↔ s.AwaitedAt a w := fun a w => by simp only [State.AwaitedAt, hslots]
  have hholdings : ∀ a, t.awaitedHoldings a = s.awaitedHoldings a := fun a => by
    simp only [State.awaitedHoldings, hwindows, hawaited]
  have hlost : ∀ a, t.Lost p a ↔ s.Lost p a := fun a => by rw [State.Lost, hagents]
  generalize t.losePorts p = u at hbegun hagent
  have hrequest : ∀ e, (t.entry e).request = (s.entry e).request := fun e => by
    rw [hlink.entry]
    split
    · rfl
    · rfl
  refine
    { only := by rw [hbegun.only, honly]
      port := fun q => (hbegun.port q).trans (hlink.port q)
      entry := fun e => ?_
      lists := fun h => ⟨(hbegun.lists (hlink.lists h).1).1, fun x => ?_⟩
      agent := fun a => by simp only [hagent, State.portLost, hagents, hholdings]
      listed := fun a => by simp only [hbegun.listed, hset, hlost]
      slot := fun k => hslots k ▸ hbegun.slot k
      slot_idle := fun k hk => hslots k ▸ hbegun.slot_idle k (by rw [hslots]; exact hk)
      pending := fun k hk a => by simp only [hbegun.pending k (by rw [hslots]; exact hk), hslots, hlost]
      unsent := fun k hk a => by simp only [hbegun.unsent k (by rw [hslots]; exact hk), hslots, hlost]
      window := fun w => hwindows w ▸ hbegun.window w
      holders := fun w a => by simp only [hbegun.holders, hwindows, hlost, hawaited] }
  · rw [hbegun.entry]
    simp only [decide_eq_true_iff, hlost, hlink.entry, State.Dropped]
    by_cases hfree : (s.entry e).state = .free
    · simp [hfree]
    · by_cases hp : (s.entry e).port = p
      · simp [hfree, hp]
      · simp [hfree, hp]
  · rw [(hbegun.lists (hlink.lists h).1).2, (hlink.lists h).2, List.filter_filter]
    refine List.filter_congr fun e _ => ?_
    rw [hrequest, Bool.decide_or, Bool.not_or, Bool.and_comm]
    simp only [hlost, beq_eq_decide]

end Sys2Proof.Machine
end

section
/-! SUPPORT. What the end of a claim leaves of an agent's record and of the parking pool (R36, R65, R91, R141), as the
entry into REINIT needs it (O16). -/

namespace Sys2Proof.Machine

/-! ## A head that waits for a slot (R141) -/

/-- The head examined again is refused, applied at once or left waiting, or it fills a slot and the claim settles
again. A change applied at once finds no holder, and so changes no agent. -/
theorem reconsider_cases (s : State) :
    (s.reconsider none).agents = s.agents ∧ (s.reconsider none).parking = s.parking ∨
      ∃ k z v tag, s.reconsider none = (s.takeCommand.fillSlot none k z v tag).settle none true := by
  unfold State.reconsider
  split
  · split
    · next r _ _ =>
      cases hj : judgeChange s r with
      | refused status => exact .inl ⟨rfl, rfl⟩
      | immediate z v =>
        exact .inl ⟨applyNow_agents r v (judgeChange_immediate hj), changeEffect_parking s.takeCommand z v⟩
      | needsSlot z v =>
        unfold State.carryOut
        dsimp only
        split
        · exact .inl ⟨rfl, rfl⟩
        · next k _ => exact .inr ⟨k, z, v, recordTag r, rfl⟩
    · exact .inl ⟨rfl, rfl⟩
  · exact .inl ⟨rfl, rfl⟩

/-! ## Records in which the held count alone falls -/

/-- From `s` to `t` the record of agent `a` keeps all but its held count, which does not rise. -/
structure HeldFalls (a : AgentId) (s t : State) : Prop where
  agent : t.agent a = { s.agent a with held := (t.agent a).held }
  held : (t.agent a).held ≤ (s.agent a).held

theorem heldFalls_of_agent {a : AgentId} {s t : State} (h : t.agent a = s.agent a) : HeldFalls a s t :=
  ⟨by rw [h], by rw [h]⟩

theorem heldFalls_of_less {a : AgentId} {s t : State} {n : Nat}
    (h : t.agent a = { s.agent a with held := (s.agent a).held - n }) : HeldFalls a s t :=
  ⟨by rw [h], by rw [h]; exact Nat.sub_le _ _⟩

theorem dropHolders_heldFalls (s : State) (w : WindowId) (x : AgentSet) (a : AgentId) :
    HeldFalls a s (s.dropHolders w x) := by
  by_cases h : hasAgent x a = true ∧ hasAgent (s.window w).holders a = true
  · exact heldFalls_of_less ((dropHolders_agent s w x a).trans (if_pos h))
  · exact heldFalls_of_agent ((dropHolders_agent s w x a).trans (if_neg h))

theorem leaveFirst_heldFalls (s : State) (k : SlotId) (a : AgentId) : HeldFalls a s (s.leaveFirst k) := by
  unfold State.leaveFirst
  split
  · split
    · exact heldFalls_of_less ((leaveHoldings_leftBy s _ _).agent a)
    · exact heldFalls_of_agent rfl
    · exact heldFalls_of_agent rfl
    · exact heldFalls_of_agent rfl
  · exact heldFalls_of_agent rfl

theorem completeSlot_heldFalls (s : State) (k : SlotId) (a : AgentId) : HeldFalls a s (s.completeSlot k).1 := by
  have hwindow : ∀ w, subjectWindow (s.slot k).subject = some w → HeldFalls a s (s.completeSlot k).1 := fun w hw =>
    heldFalls_of_agent (by rw [(completeSlot_of_window hw).only]; rfl)
  cases hz : (s.slot k).subject with
  | modify w => exact hwindow w (by rw [hz]; rfl)
  | retire w => exact hwindow w (by rw [hz]; rfl)
  | close c => exact heldFalls_of_less ((completeSlot_of_close hz).agent a)
  | leave c b =>
    have hagent := (completeSlot_of_leave hz).agent a
    by_cases hb : a = b
    · subst hb
      exact heldFalls_of_less (hagent.trans (if_pos rfl))
    · exact heldFalls_of_agent (hagent.trans (if_neg hb))

theorem fillSlot_heldFalls (s : State) (k : SlotId) (z : ChangeSubject) (v : NewValues) (tag : Half) (a : AgentId) :
    HeldFalls a s (s.fillSlot none k z v tag) := by
  have hfill := fillSlot_agent s k z v tag a
  have changing : ∀ w, HeldFalls a s (s.recordsFilled k (.modify w)) := fun w =>
    ⟨(dropHolders_heldFalls _ w _ a).agent, (dropHolders_heldFalls _ w _ a).held⟩
  have hrecords : HeldFalls a s (s.recordsFilled k z) := by
    cases z with
    | modify w => exact changing w
    | retire w => exact changing w
    | close c => exact heldFalls_of_agent rfl
    | leave c b => exact heldFalls_of_agent rfl
  exact ⟨by rw [hfill]; exact hrecords.agent, by rw [hfill]; exact hrecords.held⟩

/-! ## The record of an agent at the end of a claim (R36) -/

/-- `r'` is what the end of a claim can leave of the record `r` of an agent: the held count falls, and the purge of an
agent that holds nothing any more ends in its target. -/
inductive Agent.Settles (r : Agent) : Agent → Prop
  | holds (n : Nat) (h : n ≤ r.held) : Settles r { r with held := n }
  | absent (hs : r.state = .purging) (ht : r.target = some .absent) : Settles r { r with
      state := .absent, port := none, target := none, welcomeOwed := false, held := 0 }
  | fenced (hs : r.state = .purging) (ht : r.target = some .fenced) : Settles r { r with
      state := .fenced, target := none, held := 0 }
  | active (hs : r.state = .purging) (ht : r.target = some .active) (w : Bool) : Settles r { r with
      state := .active, target := none, welcomeOwed := w, held := 0 }

namespace Agent.Settles

variable {r : Agent} {a : AgentId} {s t : State}

theorem refl (r : Agent) : Agent.Settles r r := .holds r.held le_rfl

theorem heldFalls (h : Agent.Settles r (s.agent a)) (hfalls : HeldFalls a s t) : Agent.Settles r (t.agent a) := by
  obtain ⟨hagent, hheld⟩ := hfalls
  rw [hagent]
  generalize (t.agent a).held = n at hheld
  generalize s.agent a = x at *
  cases h with
  | holds m hm => exact .holds n (hheld.trans hm)
  | absent hs ht =>
    obtain rfl := Nat.le_zero.mp hheld
    exact .absent hs ht
  | fenced hs ht =>
    obtain rfl := Nat.le_zero.mp hheld
    exact .fenced hs ht
  | active hs ht w =>
    obtain rfl := Nat.le_zero.mp hheld
    exact .active hs ht w

theorem of_agent (h : Agent.Settles r (s.agent a)) (hsame : t.agent a = s.agent a) : Agent.Settles r (t.agent a) :=
  hsame ▸ h

/-- A purge ends in its target. -/
theorem reachTarget (h : Agent.Settles r (s.agent a)) (hover : s.PurgeIsOver a) :
    Agent.Settles r ((s.reachTarget none a).agent a) := by
  obtain ⟨hpurging, hzero⟩ := hover
  obtain ⟨hs, hrecord⟩ : r.state = .purging ∧ s.agent a = { r with held := 0 } := by
    generalize s.agent a = x at *
    cases h with
    | holds n hn => exact ⟨hpurging, congrArg (fun m => ({ r with held := m } : Agent)) hzero⟩
    | absent | fenced | active => cases hpurging
  have htarget : (s.agent a).target = r.target := by rw [hrecord]
  cases ht : r.target with
  | none =>
    have hstays : s.reachTarget none a = s := by simp only [State.reachTarget, htarget, ht]
    rw [hstays]
    exact h
  | some target =>
    cases target with
    | active =>
      cases hroom : s.welcomePort none a with
      | none =>
        rw [reachTarget_owed (htarget.trans ht) hroom, State.setAgent_agent, if_pos rfl, hrecord]
        exact .active hs ht r.welcomeOwed
      | some q =>
        rw [reachTarget_placed (htarget.trans ht) hroom, place_agent, State.setAgent_agent, if_pos rfl, hrecord]
        exact .active hs ht false
    | absent =>
      simp only [State.reachTarget, ht, State.setAgent_agent, if_true, hrecord]
      exact .absent hs ht
    | fenced =>
      simp only [State.reachTarget, ht, State.setAgent_agent, if_true, hrecord]
      exact .fenced hs ht

theorem endPurge (h : Agent.Settles r (s.agent a)) (b : AgentId) : Agent.Settles r ((s.endPurge none b).agent a) := by
  by_cases hb : a = b
  · subst hb
    by_cases hover : s.PurgeIsOver a
    · rw [endPurge_over hover]
      exact h.reachTarget hover
    · rw [endPurge_not_over hover]
      exact h
  · exact h.of_agent (endPurge_agent_of_ne s none hb)

theorem completeEmptied (h : Agent.Settles r (s.agent a)) : Agent.Settles r (s.completeEmptied.1.agent a) := by
  have hleave : Agent.Settles r ((allSlots.foldl State.leaveFirst s).agent a) :=
    foldl_invariant (fun t : State => Agent.Settles r (t.agent a)) _
      (fun t k ht => ht.heldFalls (leaveFirst_heldFalls t k a)) allSlots s h
  unfold State.completeEmptied
  generalize allSlots.foldl State.leaveFirst s = u at hleave
  refine foldl_invariant (fun x : State × List Completion => Agent.Settles r (x.1.agent a)) _ (fun x k hx => ?_)
    allSlots (u, []) hleave
  unfold completeIfEmptied
  split
  · exact hx.heldFalls (completeSlot_heldFalls x.1 k a)
  · exact hx

theorem settle (h : Agent.Settles r (s.agent a)) (late : Bool) : Agent.Settles r ((s.settle none late).agent a) := by
  have hcompleted := h.completeEmptied
  rw [settle_agent]
  generalize s.completeEmptied.1 = u at hcompleted
  exact foldl_invariant (fun t : State => Agent.Settles r (t.agent a)) _ (fun t b ht => ht.endPurge b) allAgents u
    hcompleted

theorem finish (h : Agent.Settles r (s.agent a)) :
    Agent.Settles r (((s.settle none false).reconsider none).agent a) := by
  have hsettled := h.settle false
  generalize s.settle none false = t at hsettled
  rcases reconsider_cases t with ⟨hagents, -⟩ | ⟨k, z, v, tag, hfill⟩
  · exact hsettled.of_agent (by rw [State.agent_eq, hagents]; rfl)
  · rw [hfill]
    exact (hsettled.heldFalls (s := t.takeCommand) (fillSlot_heldFalls t.takeCommand k z v tag a)).settle true

theorem of_not_purging {r' : Agent} (h : Agent.Settles r r') (hs : r.state ≠ .purging) :
    r' = { r with held := r'.held } := by
  cases h with
  | holds n hn => rfl
  | absent hp _ | fenced hp _ | active hp _ _ => exact absurd hp hs

theorem port_of_bound {r' : Agent} (h : Agent.Settles r r') {p : PortId} (hp : r'.port = some p) :
    r.port = some p := by
  cases h with
  | holds | fenced | active => exact hp
  | absent => cases hp

theorem fenceOwed {r' : Agent} (h : Agent.Settles r r') : r'.fenceOwed = r.fenceOwed := by
  cases h with
  | holds | absent | fenced | active => rfl

theorem ne_active {r' : Agent} (h : Agent.Settles r r') (hactive : r.state ≠ .active)
    (htarget : r.target ≠ some .active) : r'.state ≠ .active := by
  cases h with
  | holds => exact hactive
  | absent | fenced => exact nofun
  | active _ ht => exact absurd ht htarget

end Agent.Settles

section
variable {s : State} {a : AgentId}

theorem settle_holds (h : AgentsTracked s) (late : Bool) (hp : ((s.settle none late).agent a).state = .purging) :
    ((s.settle none late).agent a).held ≠ 0 := by
  have htracked := tracked_of_standing (completeEmptied_standing s) h
  rw [settle_agent] at hp ⊢
  generalize s.completeEmptied.1 = u at htracked hp ⊢
  exact endPurges_held none (htracked a).has_target hp

/-- Every agent that is PURGING at the end of a claim holds something. -/
theorem finish_holds (h : AgentsTracked s)
    (hp : (((s.settle none false).reconsider none).agent a).state = .purging) :
    (((s.settle none false).reconsider none).agent a).held ≠ 0 := by
  have htracked := settle_tracked h none false
  have hsettled := settle_holds (a := a) h false
  generalize s.settle none false = t at htracked hsettled hp ⊢
  rcases reconsider_cases t with ⟨hagents, -⟩ | ⟨k, z, v, tag, hfill⟩
  · rw [State.agent_eq, hagents, ← State.agent_eq] at hp ⊢
    exact hsettled hp
  · rw [hfill] at hp ⊢
    have htake : AgentsTracked t.takeCommand := htracked
    exact settle_holds (tracked_of_standing (fillSlot_standing _ none k z v tag) htake) true hp

theorem listed_iff_purging (h : AgentsTracked s) (a : AgentId) :
    hasAgent s.purgeSet a = true ↔ (s.agent a).state = .purging := by
  obtain ⟨-, hlisted, -⟩ := (allowed_iff _).mp (h a)
  exact hlisted

/-! ## The parking pool at the end of a claim (R65) -/

/-- The pool has its lists, and no entry in use is one of port `p`. -/
structure OffPort (p : PortId) (s : State) : Prop where
  listed : PoolListed s
  port : ∀ e, (s.entry e).state ≠ .free → (s.entry e).port ≠ p

theorem offPort_of_parking {p : PortId} {t : State} (ht : t.parking = s.parking) (h : OffPort p s) : OffPort p t where
  listed := poolListed_of_parking ht h.listed
  port e := by
    have hpool : t.pool = s.pool := congrArg Parking.pool ht
    have hentry : t.entry e = s.entry e := congrArg (fun x => tableGet PoolEntry.initial x e) hpool
    rw [hentry]
    exact h.port e

/-- A park order moved to the replay list is one of entries in use already. -/
theorem completeSlot_offPort {p : PortId} (h : OffPort p s) (k : SlotId) : OffPort p (s.completeSlot k).1 where
  listed := completeSlot_listed h.listed k
  port e := by
    have hwindow : ∀ w, subjectWindow (s.slot k).subject = some w →
        ((s.completeSlot k).1.entry e).state ≠ .free → ((s.completeSlot k).1.entry e).port ≠ p := fun w hw => by
      rw [(completeSlot_of_window hw).entry]
      split
      · next he => exact fun _ => h.port e (used_of_mem_entriesOn h.listed (x := some w) he)
      · exact h.port e
    cases hz : (s.slot k).subject with
    | modify w => exact hwindow w (by rw [hz]; rfl)
    | retire w => exact hwindow w (by rw [hz]; rfl)
    | close c =>
      rw [(completeSlot_of_close hz).only]
      exact h.port e
    | leave c b =>
      rw [(completeSlot_of_leave hz).only]
      exact h.port e

theorem settle_offPort {p : PortId} (h : OffPort p s) (late : Bool) : OffPort p (s.settle none late) := by
  have hsettled : (s.settle none late).parking = s.completeEmptied.1.parking := by
    unfold State.settle
    exact ((postAll_parking _ _).trans (clearFences_parking _)).trans (endPurges_parking _ none)
  have hleave : (allSlots.foldl State.leaveFirst s).parking = s.parking :=
    foldl_keeps State.parking State.leaveFirst leaveFirst_parking allSlots s
  refine offPort_of_parking hsettled ?_
  unfold State.completeEmptied
  generalize allSlots.foldl State.leaveFirst s = t at hleave
  refine foldl_invariant (fun x : State × List Completion => OffPort p x.1) completeIfEmptied (fun x k hx => ?_)
    allSlots (t, []) (offPort_of_parking hleave h)
  unfold completeIfEmptied
  split
  · exact completeSlot_offPort hx k
  · exact hx

theorem finish_offPort {p : PortId} (h : OffPort p s) : OffPort p ((s.settle none false).reconsider none) := by
  have hsettled := settle_offPort h false
  generalize s.settle none false = t at hsettled ⊢
  rcases reconsider_cases t with ⟨-, hparking⟩ | ⟨k, z, v, tag, hfill⟩
  · exact offPort_of_parking hparking hsettled
  · rw [hfill]
    have htake : OffPort p t.takeCommand := offPort_of_parking (s := t) rfl hsettled
    have hfilled := fillSlot_parking t.takeCommand none k z v tag
    exact settle_offPort (offPort_of_parking hfilled htake) true

end

end Sys2Proof.Machine
end

section
/-! SUPPORT. The entry into REINIT (O16): the loss of the port, and what the end of the claim leaves of it. -/

namespace Sys2Proof.Machine

/-- A claim with no head that waits for a slot examines none again. -/
theorem reinit_not_waiting {s : State} (h : s.slotWait = false) (p : PortId) (d : Destination) :
    s.enterReinit p d = (s.portPurged p d).settle none false := by
  rw [enterReinit_eq]
  refine reconsider_of_none_waiting ?_ none
  rw [(settle_waiting _).2, (portPurged s p d).only]
  exact h

/-! ## What the loss of the port makes of a record that is kept well (R41) -/

section
variable {s : State} {p : PortId} {a : AgentId}

theorem portLost_port (s : State) (p : PortId) (a : AgentId) : (s.portLost p a).port = (s.agent a).port := by
  unfold State.portLost
  dsimp only
  split
  · split
    · rfl
    · split
      · rfl
      · rfl
  · rfl

theorem portLost_fenceOwed (hport : (s.agent a).port = some p) : (s.portLost p a).fenceOwed = false := by
  rw [State.portLost, if_pos hport]
  split
  · rfl
  · split
    · rfl
    · rfl

theorem purging_of_target (h : AgentsTracked s) {target : PurgeTarget} (ht : (s.agent a).target = some target) :
    (s.agent a).state = .purging := by
  obtain ⟨-, -, htarget⟩ := (allowed_iff _).mp (h a)
  exact htarget.mpr (Option.isSome_iff_exists.mpr ⟨target, ht⟩)

/-- An agent of the port is not ACTIVE, nor on its way there. -/
theorem portLost_ne_active (h : AgentsTracked s) (hport : (s.agent a).port = some p) :
    (s.portLost p a).state ≠ .active ∧ (s.portLost p a).target ≠ some .active := by
  by_cases hactive : (s.agent a).state = .active
  · rw [portLost_of_lost ⟨hport, hactive⟩]
    exact ⟨nofun, nofun⟩
  by_cases htarget : (s.agent a).target = some .active
  · have hpurging := purging_of_target h htarget
    rw [portLost_of_toActive hport hpurging htarget]
    exact ⟨hactive, nofun⟩
  · rw [portLost_of_kept hport hactive (.inr htarget)]
    exact ⟨hactive, htarget⟩

/-- An agent that was ACTIVE, or PURGING toward another target than FENCED, is PURGING toward ABSENT. -/
theorem portLost_towardAbsent (h : AgentsTracked s) (hport : (s.agent a).port = some p)
    (hstate : (s.agent a).state = .active ∨ (s.agent a).state = .purging ∧ (s.agent a).target ≠ some .fenced) :
    ∃ n, s.portLost p a = ⟨.purging, some p, some .absent, false, false, n⟩ := by
  rcases hstate with hactive | ⟨hpurging, hfenced⟩
  · refine ⟨(s.agent a).held - s.awaitedHoldings a, (portLost_of_lost ⟨hport, hactive⟩).trans ?_⟩
    simp only [hport]
  · obtain ⟨⟨-, hwelcome⟩, -, hsome⟩ := (allowed_iff _).mp (h a)
    obtain ⟨target, htarget⟩ : ∃ target, (s.agent a).target = some target :=
      Option.isSome_iff_exists.mp (hsome.mp hpurging)
    cases target with
    | active =>
      refine ⟨(s.agent a).held, (portLost_of_toActive hport hpurging htarget).trans ?_⟩
      simp only [hpurging, hport]
    | absent =>
      have hactive : (s.agent a).state ≠ .active := by rw [hpurging]; exact nofun
      have htoActive : (s.agent a).target ≠ some .active := by rw [htarget]; exact nofun
      have howed : (s.agent a).welcomeOwed = false := by
        rw [Bool.eq_false_iff]
        exact fun hw => (hwelcome hw).elim hactive fun hx => htoActive hx.2
      refine ⟨(s.agent a).held, (portLost_of_kept hport hactive (.inr htoActive)).trans ?_⟩
      simp only [hpurging, hport, htarget, howed]
    | fenced => exact absurd htarget hfenced

/-- One PURGING toward FENCED keeps target and port. -/
theorem portLost_towardFenced (hport : (s.agent a).port = some p) (hpurging : (s.agent a).state = .purging)
    (htarget : (s.agent a).target = some .fenced) :
    ∃ w n, s.portLost p a = ⟨.purging, some p, some .fenced, w, false, n⟩ := by
  have hactive : (s.agent a).state ≠ .active := by rw [hpurging]; exact nofun
  have htoActive : (s.agent a).target ≠ some .active := by rw [htarget]; exact nofun
  refine ⟨(s.agent a).welcomeOwed, (s.agent a).held, (portLost_of_kept hport hactive (.inr htoActive)).trans ?_⟩
  simp only [hpurging, hport, htarget]

end

/-! ## What the claim leaves -/

/-- `t` is what the entry of port `p` into REINIT makes of `s`, as far as the entries and the agents go. -/
structure PortGone (p : PortId) (s t : State) : Prop where
  offPort : OffPort p t
  tracked : AgentsTracked t
  settles : ∀ a, (s.portLost p a).Settles (t.agent a)
  holds : ∀ a, (t.agent a).state = .purging → (t.agent a).held ≠ 0

theorem PortPurged.offPort {s u : State} {p : PortId} {d : Destination} (h : PortPurged p d s u) (hs : PoolListed s) :
    OffPort p u where
  listed := (h.lists hs).1
  port e := by
    rw [h.entry]
    split
    · exact fun hused => absurd rfl hused
    · next hkept => exact fun hused hp => hkept ⟨hused, .inl hp⟩

theorem portPurged_tracked {s : State} (h : AgentsTracked s) (p : PortId) (d : Destination) :
    AgentsTracked (s.portPurged p d) := by
  have hdiscard : AgentsTracked (s.discardLink p d) := h
  exact losePorts_tracked (tracked_of_standing (dropEntries_standing _ _) hdiscard) p

theorem enterReinit_portGone {s : State} (hlisted : PoolListed s) (htracked : AgentsTracked s) (p : PortId)
    (d : Destination) : PortGone p s (s.enterReinit p d) := by
  have hpurged := portPurged s p d
  have hutracked := portPurged_tracked htracked p d
  have hafter := enterReinit_tracked htracked p d
  rw [enterReinit_eq] at hafter ⊢
  generalize s.portPurged p d = u at hpurged hutracked hafter ⊢
  exact
    { offPort := finish_offPort (hpurged.offPort hlisted)
      tracked := hafter
      settles := fun a => hpurged.agent a ▸ (Agent.Settles.refl (u.agent a)).finish
      holds := fun a => finish_holds hutracked }

section
variable {s t : State} {p : PortId} {a : AgentId}

/-- An agent out of PURGING is out of the purge set. -/
theorem unlisted_of_not_purging (h : AgentsTracked s) (ha : (s.agent a).state ≠ .purging) :
    hasAgent s.purgeSet a = false := by
  rw [Bool.eq_false_iff]
  exact fun hx => ha ((listed_iff_purging h a).mp hx)

theorem PortGone.bound (h : PortGone p s t) (hs : AgentsTracked s) (ha : (t.agent a).port = some p) :
    (t.agent a).state ≠ .active ∧ (t.agent a).fenceOwed = false := by
  have hsettles := h.settles a
  have hport : (s.agent a).port = some p := (portLost_port s p a) ▸ hsettles.port_of_bound ha
  obtain ⟨hactive, htarget⟩ := portLost_ne_active hs hport
  exact ⟨hsettles.ne_active hactive htarget, hsettles.fenceOwed.trans (portLost_fenceOwed hport)⟩

theorem PortGone.towardAbsent (h : PortGone p s t) (hs : AgentsTracked s) (hport : (s.agent a).port = some p)
    (hstate : (s.agent a).state = .active ∨ (s.agent a).state = .purging ∧ (s.agent a).target ≠ some .fenced) :
    (t.agent a).welcomeOwed = false ∧ (t.agent a).fenceOwed = false ∧
      ((t.agent a).state = .purging ∧ (t.agent a).target = some .absent ∧ (t.agent a).port = some p ∧
          hasAgent t.purgeSet a = true ∧ (t.agent a).held ≠ 0 ∨
        (t.agent a).state = .absent ∧ (t.agent a).target = none ∧ (t.agent a).port = none ∧
          hasAgent t.purgeSet a = false ∧ (t.agent a).held = 0) := by
  have hsettles := h.settles a
  have hholds := h.holds a
  have hlisted := (listed_iff_purging h.tracked a).mpr
  have hunlisted := unlisted_of_not_purging (a := a) h.tracked
  obtain ⟨n, hlost⟩ := portLost_towardAbsent hs hport hstate
  rw [hlost] at hsettles
  generalize t.agent a = r at *
  cases hsettles with
  | holds m hm => exact ⟨rfl, rfl, .inl ⟨rfl, rfl, rfl, hlisted rfl, hholds rfl⟩⟩
  | absent => exact ⟨rfl, rfl, .inr ⟨rfl, rfl, rfl, hunlisted nofun, rfl⟩⟩
  | fenced _ ht => cases ht
  | active _ ht => cases ht

theorem PortGone.towardFenced (h : PortGone p s t) (hport : (s.agent a).port = some p)
    (hpurging : (s.agent a).state = .purging) (htarget : (s.agent a).target = some .fenced) :
    (t.agent a).port = some p ∧ (t.agent a).fenceOwed = false ∧
      ((t.agent a).state = .purging ∧ (t.agent a).target = some .fenced ∧ hasAgent t.purgeSet a = true ∧
          (t.agent a).held ≠ 0 ∨
        (t.agent a).state = .fenced ∧ (t.agent a).target = none ∧ hasAgent t.purgeSet a = false ∧
          (t.agent a).held = 0) := by
  have hsettles := h.settles a
  have hholds := h.holds a
  have hlisted := (listed_iff_purging h.tracked a).mpr
  have hunlisted := unlisted_of_not_purging (a := a) h.tracked
  obtain ⟨w, n, hlost⟩ := portLost_towardFenced hport hpurging htarget
  rw [hlost] at hsettles
  generalize t.agent a = r at *
  cases hsettles with
  | holds m hm => exact ⟨rfl, rfl, .inl ⟨rfl, rfl, hlisted rfl, hholds rfl⟩⟩
  | absent _ ht => cases ht
  | fenced => exact ⟨rfl, rfl, .inr ⟨rfl, rfl, hunlisted nofun, rfl⟩⟩
  | active _ ht => cases ht

theorem PortGone.fenced (h : PortGone p s t) (hport : (s.agent a).port = some p)
    (hfenced : (s.agent a).state = .fenced) :
    t.agent a = { s.agent a with fenceOwed := false, held := (t.agent a).held } := by
  have hsettles := h.settles a
  have hactive : (s.agent a).state ≠ .active := by rw [hfenced]; exact nofun
  have hpurging : (s.agent a).state ≠ .purging := by rw [hfenced]; exact nofun
  rw [portLost_of_kept hport hactive (.inl hpurging)] at hsettles
  exact hsettles.of_not_purging hpurging

theorem PortGone.unbound (h : PortGone p s t) (hport : (s.agent a).port ≠ some p)
    (hpurging : (s.agent a).state ≠ .purging) : t.agent a = { s.agent a with held := (t.agent a).held } := by
  have hsettles := h.settles a
  rw [portLost_of_unbound hport] at hsettles
  exact hsettles.of_not_purging hpurging

end

/-- Settles O16: the purges that start are one change of the directory; from there on a claim's end takes holdings
from agents and ends purges, and it brings no entry into use. -/
theorem reinitPurgesThePort : Obligations.ReinitPurgesThePort := by
  refine ⟨fun s p d => ?_, fun s p d hlisted hpurges => ?_⟩
  · intro lost dropped
    have h := portPurged s p d
    refine ⟨s.portPurged p d, h.only, h.port, fun e => ⟨fun hd => (h.entry e).trans (if_pos hd),
      fun hd => (h.entry e).trans (if_neg hd)⟩, fun hs => ?_, fun a => ?_, fun a => ?_,
      fun k => ⟨h.slot_idle k, h.slot k, fun hk a => ?_⟩, fun w => ⟨h.window w, fun a => ?_⟩, enterReinit_eq s p d,
      fun hwait => reinit_not_waiting hwait p d⟩
    · refine ⟨fun e => !decide (s.Dropped p e), fun e => by simp only [Bool.not_eq_true', decide_eq_false_iff_not]; rfl,
        fun w => (h.lists hs).2 (some w), (h.lists hs).2 none⟩
    · refine ⟨fun hlost => (h.agent a).trans (portLost_of_lost hlost), fun hport hstate htarget =>
        (h.agent a).trans (portLost_of_toActive hport hstate htarget), fun hport hactive hkept =>
        (h.agent a).trans (portLost_of_kept hport hactive hkept), fun hport =>
        (h.agent a).trans (portLost_of_unbound hport)⟩
    · rw [h.listed, Bool.or_eq_true, decide_eq_true_iff]
    · rw [h.pending k hk, h.unsent k hk]
      simp only [Bool.and_eq_true, Bool.not_eq_true', Bool.and_eq_false_imp, decide_eq_true_iff,
        decide_eq_false_iff_not]
      have hlost : lost a ↔ s.Lost p a := Iff.rfl
      rw [hlost]
      constructor
      · tauto
      · rw [not_and, Bool.not_eq_true]
    · rw [h.holders, ← Bool.decide_and, Bool.and_eq_true, Bool.not_eq_true', decide_eq_false_iff_not]
  · obtain ⟨-, htracked⟩ := purgesTracked_iff.mp hpurges
    have hgone := enterReinit_portGone hlisted htracked p d
    exact ⟨hgone.offPort.port, fun a => hgone.bound htracked, hgone.holds, fun a =>
      ⟨hgone.towardAbsent htracked, hgone.towardFenced, hgone.fenced, hgone.unbound⟩⟩

end Sys2Proof.Machine
end

section
/-! SUPPORT. Operations that leave the command engine's queues as they are: grant-part reads, lookups, entries into
UP, the refill and the timers. -/

namespace Sys2Proof.Machine

/-! ## Grant-part reads and lookups -/

@[simp] theorem readGrant_engine (s : State) (d : Detector) (w : WindowId) :
    (s.readGrant d w).1.engine = s.engine := by
  unfold State.readGrant
  split
  · rfl
  · split
    · rfl
    · rfl
    · unfold State.spoil; split <;> rfl

@[simp] theorem answerLive_engine (s : State) (p : PortId) (r : Request) (w : WindowId) :
    (s.answerLive p r w).engine = s.engine := by
  have hread := readGrant_engine s .lookup w
  unfold State.answerLive
  dsimp only
  split
  · exact (place_engine _ _ _).trans hread
  · split
    · exact ((place_engine _ _ _).trans (addHolder_engine _ _ _)).trans hread
    · exact (place_engine _ _ _).trans hread

@[simp] theorem parkEntry_engine (s : State) (e : EntryId) (r : Request) (p : PortId) (w : WindowId) :
    (s.parkEntry e r p w).engine = s.engine := rfl

@[simp] theorem closeEntry_engine (s : State) (e : EntryId) : (s.closeEntry e).engine = s.engine := rfl

@[simp] theorem park_engine (s : State) (p : PortId) (r : Request) (w : WindowId) :
    (s.park p r w).engine = s.engine := by
  unfold State.park
  split
  · exact parkEntry_engine s _ r p w
  · exact place_engine s p _

/-- The lookup claim on a port's head. -/
theorem serve_engine (s : State) (p : PortId) (r : Request) : (s.serve p r).engine = s.engine := by
  have htaken : ({ s.takeInbound p with lastPort := p } : State).engine = s.engine := rfl
  unfold State.serve
  dsimp only
  split
  · exact (place_engine _ _ _).trans htaken
  · exact (park_engine _ _ _ _).trans htaken
  · exact (answerLive_engine _ _ _ _).trans htaken

/-- The lookup claim on the replay head. -/
theorem serveReplay_engine (s : State) (e : EntryId) : (s.serveReplay e).engine = s.engine := by
  have htaken : ({ s with replayList := s.replayList.erase e } : State).engine = s.engine := rfl
  unfold State.serveReplay
  dsimp only
  split
  · exact ((closeEntry_engine _ e).trans (place_engine _ _ _)).trans htaken
  · exact (parkEntry_engine _ _ _ _ _).trans htaken
  · exact ((closeEntry_engine _ e).trans (answerLive_engine _ _ _ _)).trans htaken

@[simp] theorem applyAdd_engine (s : State) (w : WindowId) (c : ContextId) (base : LocalPage) (v : NewValues) :
    (s.applyAdd w c base v).engine = s.engine := by
  have hdrop := dropHolders_engine s w (s.window w).holders
  unfold State.applyAdd
  generalize s.dropHolders w (s.window w).holders = t at hdrop
  exact hdrop

/-! ## Ports -/

theorem enterUp_engine (s : State) (p : PortId) : (s.enterUp p).engine = s.engine := by
  have honly := enterUp_only s p
  generalize (s.enterUp p).ports = ports at honly
  rw [honly]
  rfl

theorem refillOwed_engine (s : State) (p : PortId) (a : AgentId) : (s.refillOwed p a).engine = s.engine := by
  have hpaid : ∀ (r : Agent) (m : OutMsg), ((s.setAgent a r).place p m).engine = s.engine :=
    fun r m => place_engine (s.setAgent a r) p m
  unfold State.refillOwed
  dsimp only
  split
  · split
    · exact hpaid _ _
    split
    · exact hpaid _ _
    · rfl
  · rfl

theorem refillSlot_engine (s : State) (p : PortId) (k : SlotId) : (s.refillSlot p k).engine = s.engine := by
  unfold State.refillSlot
  split
  · refine foldl_keeps State.engine (fun t a => t.refillRecall p k a) (fun t a => ?_) _ s
    unfold State.refillRecall
    split
    · exact place_engine t p _
    · rfl
  · rfl

/-! ## Timers -/

theorem takeReminder_engine (s : State) (k : SlotId) : (s.takeReminder k).engine = s.engine := by
  rw [takeReminder_onlyPorts s k]
  rfl

theorem lapse_engine (s : State) (k : SlotId) : (s.lapse k).engine = s.engine := by
  rw [lapse_only]
  rfl

/-- The first steps of a timeout and its fences. -/
theorem fencedLate_engine (s : State) (k : SlotId) (l : List AgentId) :
    (l.foldl (fun t a => t.fence a) (s.lapse k)).engine = s.engine :=
  (foldl_keeps State.engine _ fence_engine l _).trans (lapse_engine s k)

theorem scrub_engine (s : State) : s.scrub.engine = s.engine := readGrant_engine s .scrub s.scrubPosition

end Sys2Proof.Machine
end

section
/-! SUPPORT. The command queue through every claim: the command engine takes its head and nothing else reaches it
(R140), so that a claim leaves an end of the queue it found. -/

namespace Sys2Proof.Machine

/-! ## The queue drained from its head -/

/-- The commands still queued in `t` are the last ones of those queued in `s`. -/
def Drains (s t : State) : Prop := t.cmdQueue <:+ s.cmdQueue

theorem Drains.refl (s : State) : Drains s s := List.suffix_refl _

theorem Drains.trans {s t u : State} (h : Drains s t) (h' : Drains t u) : Drains s u :=
  List.IsSuffix.trans h' h

theorem drains_of_queue {s t : State} (h : t.cmdQueue = s.cmdQueue) : Drains s t := by
  unfold Drains
  rw [h]

theorem drains_of_engine {s t : State} (h : t.engine = s.engine) : Drains s t :=
  drains_of_queue (congrArg Engine.cmdQueue h)

theorem Drains.length {s t : State} (h : Drains s t) : t.cmdQueue.length ≤ s.cmdQueue.length :=
  List.IsSuffix.length_le h

theorem Drains.post {s t : State} (h : Drains s t) (c : Completion) : Drains s (t.post c) := h

theorem takeCommand_drains (s : State) : Drains s s.takeCommand := List.tail_suffix _

theorem foldl_drains {β : Type} {op : State → β → State} (h : ∀ s b, Drains s (op s b)) (l : List β) (s : State) :
    Drains s (l.foldl op s) := foldl_invariant (Drains s) op (fun t b ht => ht.trans (h t b)) l s (.refl s)

theorem whenReleased_drains {s : State} {f : State → State} (h : Drains s (f s)) : Drains s (s.whenReleased f) :=
  whenReleased_keeps (P := Drains s) (fun _ => h) (.refl s)

theorem whenServing_drains {s : State} {f : State → State} (h : Drains s (f s)) : Drains s (s.whenServing f) :=
  whenServing_keeps (P := Drains s) (fun _ => h) (.refl s)

theorem takeHead_drains {s : State} (kind : Option CommandKind) {f : CmdRecord → State → State}
    (h : ∀ r, Drains s (f r s)) : Drains s (s.takeHead kind f) := by
  refine whenServing_drains ?_
  split
  · exact h _
  · exact .refl s

/-! ## The end of a claim -/

theorem settle_drains (s : State) (kept : Option AgentId) (late : Bool) : Drains s (s.settle kept late) := by
  have hended : (s.completeEmptied.1.endPurges kept).engine = s.engine := by
    rw [endPurges_engine, completeEmptied_engine]
  refine (drains_of_engine hended).trans (drains_of_queue ?_)
  unfold State.settle
  dsimp only
  generalize s.completeEmptied.1.endPurges kept = u
  rw [postAll_eq]
  rfl

/-- The head leaves the queue, or stays there with the slot wait flag set (R141). -/
theorem carryOut_drains (s : State) (kept : Option AgentId) (late : Bool) (r : CmdRecord) (j : Judgement) :
    Drains s (s.carryOut kept late r j) := by
  have htake := takeCommand_drains s
  cases j with
  | refused status => exact htake
  | immediate x v => exact (htake.trans (drains_of_engine (changeEffect_engine _ x v))).post _
  | needsSlot x v =>
    unfold State.carryOut
    dsimp only
    split
    · exact .refl s
    · exact (htake.trans (drains_of_engine (fillSlot_engine _ kept _ x v _))).trans (settle_drains _ kept late)

theorem reconsider_drains (s : State) (kept : Option AgentId) : Drains s (s.reconsider kept) := by
  unfold State.reconsider
  split
  · split
    · exact carryOut_drains s kept true _ _
    · exact .refl s
  · exact .refl s

theorem finish_drains (s : State) (caller : Option AgentId) : Drains s (s.finish caller) := by
  unfold State.finish
  exact (settle_drains s _ false).trans (reconsider_drains _ _)

/-- Steps of a claim that leave the engine, and the claim's end. -/
theorem drains_of_finish {s t : State} (h : t.engine = s.engine) (caller : Option AgentId) :
    Drains s (t.finish caller) := (drains_of_engine h).trans (finish_drains t caller)

/-! ## The links (R113, R120) -/

theorem enterReinit_drains (s : State) (p : PortId) (d : Destination) : Drains s (s.enterReinit p d) := by
  have hdiscard : (s.discardLink p d).engine = s.engine := rfl
  exact drains_of_finish (((losePorts_engine _ p).trans (dropEntries_engine _ _)).trans hdiscard) none

theorem violation_drains (s : State) (p : PortId) (kind : Violation) : Drains s (s.violation p kind) :=
  enterReinit_drains { s with linkBank := recordLink s.linkBank p kind } p .training

theorem receiveReady_drains (s : State) (p : PortId) (n : Nat) : Drains s (s.receiveReady p n) := by
  unfold State.receiveReady
  dsimp only
  split
  · split
    · exact drains_of_engine (enterUp_engine (s.setPort p _) p)
    · exact .refl s
  · exact violation_drains s p _

theorem receiveCredit_drains (s : State) (p : PortId) (n : Nat) : Drains s (s.receiveCredit p n) := by
  unfold State.receiveCredit
  dsimp only
  split
  · exact violation_drains s p _
  · split
    · exact .refl s
    · exact violation_drains s p _

theorem receiveReinit_drains (s : State) (p : PortId) : Drains s (s.receiveReinit p) := by
  unfold State.receiveReinit
  dsimp only
  split
  · exact enterReinit_drains s p _
  · exact .refl s

theorem receiveAgent_drains (s : State) (p : PortId) (m : InMsg) : Drains s (s.receiveAgent p m) := by
  unfold State.receiveAgent
  dsimp only
  split
  · split
    · exact violation_drains s p _
    · exact .refl s
  · exact violation_drains s p _

theorem receive_drains (s : State) (p : PortId) (f : Frame) : Drains s (s.receive p f) := by
  unfold State.receive
  split
  · split
    · exact violation_drains s p _
    · exact receiveReady_drains s p _
    · exact receiveCredit_drains s p _
    · exact receiveReinit_drains s p
    · exact receiveAgent_drains s p _
  · exact .refl s

/-! ## Messages of agents, and the timeout -/

theorem takeHello_drains (s : State) (p : PortId) (a : AgentId) : Drains s (s.takeHello p a) := by
  have htold : ∀ (r : Agent) (m : OutMsg), Drains s ((s.setAgent a r).place p m) :=
    fun r m => drains_of_engine (place_engine (s.setAgent a r) p m)
  unfold State.takeHello
  dsimp only
  split
  · exact htold _ _
  split
  · exact htold _ _
  split
  · exact drains_of_engine (place_engine s p _)
  split
  · exact drains_of_finish (purgeStart_engine s a .active) (some a)
  split
  · exact htold _ _
  split
  · exact htold _ _
  split
  · exact .refl s
  · exact .refl s

theorem takeGoodbye_drains (s : State) (p : PortId) (a : AgentId) : Drains s (s.takeGoodbye p a) := by
  unfold State.takeGoodbye
  split
  · exact drains_of_finish (depart_engine s a) none
  · exact .refl s

theorem takeRelease_drains (s : State) (p : PortId) (a : AgentId) (w : WindowId) (version : Half) :
    Drains s (s.takeRelease p a w version) := by
  have hdrop : (s.dropHolder w a).engine = s.engine := dropHolder_engine s w a
  have hquit : ∀ k, ((s.dropHolder w a).dropPending k a).engine = s.engine := fun _ => hdrop
  unfold State.takeRelease
  dsimp only
  split
  · split
    · exact drains_of_finish (hquit _) none
    · exact drains_of_finish hdrop none
  · exact .refl s

theorem takeAck_drains (s : State) (p : PortId) (a : AgentId) (serial : Half) :
    Drains s (s.takeAck p a serial) := by
  unfold State.takeAck
  split
  · exact drains_of_finish (dropAnswer_engine s _ a) none
  · exact .refl s

theorem timeOut_drains (s : State) (k : SlotId) : Drains s (s.timeOut k) :=
  drains_of_finish (fencedLate_engine s k _) none

theorem takeDue_drains (s : State) (k : SlotId) : Drains s (s.takeDue k) := by
  unfold State.takeDue
  split
  · exact .refl s
  · exact drains_of_engine (takeReminder_engine s k)
  · exact timeOut_drains s k

/-! ## Takes of the command engine (R140) -/

theorem openContext_drains (s : State) (r : CmdRecord) : Drains s (s.openContext r) := by
  have htake := takeCommand_drains s
  unfold State.openContext
  split
  · exact htake
  split
  · exact htake
  split
  · exact htake
  · exact htake

theorem joinContext_drains (s : State) (r : CmdRecord) : Drains s (s.joinContext r) := by
  have htake := takeCommand_drains s
  unfold State.joinContext
  split
  · exact htake
  split
  · exact htake
  split
  · exact htake
  · exact htake

theorem addChecked_drains (s : State) (r : CmdRecord) (c : ContextId) (v : NewValues) :
    Drains s (s.addChecked r c v) := by
  have htake := takeCommand_drains s
  unfold State.addChecked
  split
  · exact htake
  split
  · exact htake
  split
  · exact htake
  split
  · exact htake
  · exact (htake.trans (drains_of_engine (applyAdd_engine _ _ c _ v))).post _

theorem addWindow_drains (s : State) (r : CmdRecord) : Drains s (s.addWindow r) := by
  have htake := takeCommand_drains s
  unfold State.addWindow
  split
  · split
    · exact addChecked_drains s r _ _
    · exact htake
  · exact htake

theorem fenceAgent_drains (s : State) (r : CmdRecord) : Drains s (s.fenceAgent r) := by
  have htake := takeCommand_drains s
  have hwait : ∀ l, Drains s { s.takeCommand with fenceWait := l } := fun _ => htake
  unfold State.fenceAgent
  split
  · exact htake
  · next a _ =>
    dsimp only
    split
    · exact (htake.trans (drains_of_engine (fence_engine _ a))).post _
    · exact (hwait _).trans (drains_of_finish (fence_engine _ a) none)

theorem unfenceAgent_drains (s : State) (r : CmdRecord) : Drains s (s.unfenceAgent r) := by
  have htake := takeCommand_drains s
  have hset : ∀ a r', Drains s (s.takeCommand.setAgent a r') := fun _ _ => htake
  unfold State.unfenceAgent
  split
  · exact htake
  split
  · dsimp only
    split
    · exact ((hset _ _).trans (drains_of_engine (place_engine _ _ _))).post _
    · exact htake
  · exact htake

theorem queryWindow_drains (s : State) (r : CmdRecord) : Drains s (s.queryWindow r) := by
  have htake := takeCommand_drains s
  unfold State.queryWindow
  split
  · exact htake
  · exact (htake.trans (drains_of_engine (readGrant_engine _ .query _))).post _

theorem queryAgent_drains (s : State) (r : CmdRecord) : Drains s (s.queryAgent r) := by
  have htake := takeCommand_drains s
  unfold State.queryAgent
  split
  · exact htake
  · exact htake

theorem queryContext_drains (s : State) (r : CmdRecord) : Drains s (s.queryContext r) := by
  have htake := takeCommand_drains s
  unfold State.queryContext
  split
  · exact htake
  · exact htake

theorem enablePort_drains (s : State) (r : CmdRecord) : Drains s (s.enablePort r) := by
  have htake := takeCommand_drains s
  unfold State.enablePort
  split
  · exact htake
  split
  · exact htake
  · exact htake

theorem disablePort_drains (s : State) (r : CmdRecord) : Drains s (s.disablePort r) := by
  have htake := takeCommand_drains s
  unfold State.disablePort
  split
  · exact htake
  · refine (htake.trans ?_).post _
    unfold State.disableLink
    split
    · exact enterReinit_drains _ _ .disabled
    · exact enterReinit_drains _ _ .disabled
    · exact .refl _
    · exact .refl _

theorem resetPort_drains (s : State) (r : CmdRecord) : Drains s (s.resetPort r) := by
  have htake := takeCommand_drains s
  unfold State.resetPort
  split
  · exact htake
  split
  · exact (htake.trans (enterReinit_drains _ _ .training)).post _
  · exact htake

/-! ## Every command -/

theorem execHello_drains (p : PortId) (s : State) : AnswersBy Drains s (execHello p s) := by
  refine ⟨_, rfl, whenServing_drains ?_⟩
  split
  · split
    · exact takeHello_drains (s.takeInbound p) p _
    · exact .refl s
  · exact .refl s

theorem execGoodbye_drains (p : PortId) (s : State) : AnswersBy Drains s (execGoodbye p s) := by
  refine ⟨_, rfl, whenServing_drains ?_⟩
  split
  · exact takeGoodbye_drains (s.takeInbound p) p _
  · exact .refl s

theorem execRelease_drains (p : PortId) (s : State) : AnswersBy Drains s (execRelease p s) := by
  refine ⟨_, rfl, whenServing_drains ?_⟩
  split
  · exact takeRelease_drains (s.takeInbound p) p _ _ _
  · exact .refl s

theorem execRecallAck_drains (p : PortId) (s : State) : AnswersBy Drains s (execRecallAck p s) := by
  refine ⟨_, rfl, whenServing_drains ?_⟩
  split
  · exact takeAck_drains (s.takeInbound p) p _ _
  · exact .refl s

theorem execLookup_drains (s : State) : AnswersBy Drains s (execLookup s) := by
  refine ⟨_, rfl, whenServing_drains ?_⟩
  split
  · split
    · exact drains_of_engine (serve_engine s _ _)
    · exact .refl s
  · exact .refl s

theorem execReplay_drains (s : State) : AnswersBy Drains s (execReplay s) := by
  refine ⟨_, rfl, whenServing_drains ?_⟩
  split
  · exact drains_of_engine (serveReplay_engine s _)
  · exact .refl s

theorem execReadyDeparture_drains (p : PortId) (s : State) : AnswersBy Drains s (execReadyDeparture p s) := by
  refine ⟨_, rfl, whenServing_drains ?_⟩
  dsimp only
  split
  · split
    · exact drains_of_engine (enterUp_engine (s.setLane p readyFrame) p)
    · exact .refl s
  · exact .refl s

theorem execReinitDeparture_drains (p : PortId) (s : State) : AnswersBy Drains s (execReinitDeparture p s) := by
  refine ⟨_, rfl, whenReleased_drains ?_⟩
  dsimp only
  split
  · split
    · exact .refl s
    · exact .refl s
  · exact .refl s

theorem execCreditDeparture_drains (p : PortId) (s : State) : AnswersBy Drains s (execCreditDeparture p s) := by
  refine ⟨_, rfl, whenReleased_drains ?_⟩
  dsimp only
  split
  · exact .refl s
  · exact .refl s

theorem execOutboundDeparture_drains (p : PortId) (s : State) :
    AnswersBy Drains s (execOutboundDeparture p s) := by
  refine ⟨_, rfl, whenReleased_drains ?_⟩
  dsimp only
  split
  · exact .refl s
  · split
    · exact .refl s
    · exact .refl s

theorem execRefill_drains (p : PortId) (s : State) : AnswersBy Drains s (execRefill p s) := by
  have howed := foldl_keeps State.engine _ (fun t a => refillOwed_engine t p a) allAgents
  have hslots := foldl_keeps State.engine _ (fun t k => refillSlot_engine t p k) allSlots
  exact ⟨_, rfl, whenServing_drains (drains_of_engine ((hslots _).trans (howed s)))⟩

theorem execRecallReminder_drains (k : SlotId) (s : State) : AnswersBy Drains s (execRecallReminder k s) := by
  refine ⟨_, rfl, whenServing_drains ?_⟩
  split
  · exact drains_of_engine (takeReminder_engine s k)
  · exact .refl s

theorem execRecallTimeout_drains (k : SlotId) (s : State) : AnswersBy Drains s (execRecallTimeout k s) := by
  refine ⟨_, rfl, whenServing_drains ?_⟩
  split
  · exact timeOut_drains s k
  · exact .refl s

theorem execPurgeVisit_drains (s : State) : AnswersBy Drains s (execPurgeVisit s) := by
  have hvisited : s.visited.engine = s.engine := by rw [visited_only]; rfl
  refine ⟨_, rfl, whenServing_drains ?_⟩
  dsimp only
  split
  · exact .refl s
  · exact drains_of_finish hvisited none

/-- A command that does not act on the registers takes commands from the head of the queue alone. -/
theorem exec_drains (c : Instr) (s : State) (h : actsOnRegisters c = false) : AnswersBy Drains s (exec c s) := by
  cases c with
  | storedError w bit => exact ⟨_, rfl, .refl s⟩
  | readyReceived p f => exact ⟨_, rfl, whenReleased_drains (receive_drains s p f)⟩
  | creditReceived p f => exact ⟨_, rfl, whenReleased_drains (receive_drains s p f)⟩
  | reinitReceived p f => exact ⟨_, rfl, whenReleased_drains (receive_drains s p f)⟩
  | agentMessageArrival p f => exact ⟨_, rfl, whenReleased_drains (receive_drains s p f)⟩
  | hello p => exact execHello_drains p s
  | goodbye p => exact execGoodbye_drains p s
  | release p => exact execRelease_drains p s
  | recallAck p => exact execRecallAck_drains p s
  | lookup => exact execLookup_drains s
  | replay => exact execReplay_drains s
  | readyDeparture p => exact execReadyDeparture_drains p s
  | reinitDeparture p => exact execReinitDeparture_drains p s
  | creditDeparture p => exact execCreditDeparture_drains p s
  | outboundDeparture p => exact execOutboundDeparture_drains p s
  | refill p => exact execRefill_drains p s
  | recallReminder k => exact execRecallReminder_drains k s
  | recallTimeout k => exact execRecallTimeout_drains k s
  | purgeVisit => exact execPurgeVisit_drains s
  | badCommand => exact ⟨_, rfl, takeHead_drains _ fun _ => takeCommand_drains s⟩
  | openContext => exact ⟨_, rfl, takeHead_drains _ fun r => openContext_drains s r⟩
  | closeContext => exact ⟨_, rfl, takeHead_drains _ fun r => carryOut_drains s none false r _⟩
  | join => exact ⟨_, rfl, takeHead_drains _ fun r => joinContext_drains s r⟩
  | leave => exact ⟨_, rfl, takeHead_drains _ fun r => carryOut_drains s none false r _⟩
  | addWindow => exact ⟨_, rfl, takeHead_drains _ fun r => addWindow_drains s r⟩
  | modifyWindow => exact ⟨_, rfl, takeHead_drains _ fun r => carryOut_drains s none false r _⟩
  | retireWindow => exact ⟨_, rfl, takeHead_drains _ fun r => carryOut_drains s none false r _⟩
  | fenceAgent => exact ⟨_, rfl, takeHead_drains _ fun r => fenceAgent_drains s r⟩
  | unfenceAgent => exact ⟨_, rfl, takeHead_drains _ fun r => unfenceAgent_drains s r⟩
  | queryWindow => exact ⟨_, rfl, takeHead_drains _ fun r => queryWindow_drains s r⟩
  | queryAgent => exact ⟨_, rfl, takeHead_drains _ fun r => queryAgent_drains s r⟩
  | queryContext => exact ⟨_, rfl, takeHead_drains _ fun r => queryContext_drains s r⟩
  | portEnable => exact ⟨_, rfl, takeHead_drains _ fun r => enablePort_drains s r⟩
  | portDisable => exact ⟨_, rfl, takeHead_drains _ fun r => disablePort_drains s r⟩
  | portReset => exact ⟨_, rfl, takeHead_drains _ fun r => resetPort_drains s r⟩
  | _ => cases h

end Sys2Proof.Machine
end

section
/-! SUPPORT. The ranges of the management port's registers through every step (O59). -/

namespace Sys2Proof.Machine

section
variable {s : State}

/-- A command that leaves the registers and takes commands from the head of the queue keeps the ranges. -/
theorem registersInRange_of_drains {t : State} (hregisters : t.registers = s.registers) (hqueue : Drains s t)
    (h : RegistersInRange s) : RegistersInRange t := by
  obtain ⟨hstaging, hlength, hposition, hlimit, htimer⟩ := h
  refine ⟨?_, hqueue.length.trans hlength, ?_, ?_, ?_⟩
  · rwa [show t.staging = s.staging from congrArg Registers.staging hregisters]
  · rwa [show t.readPosition = s.readPosition from congrArg Registers.readPosition hregisters]
  · rwa [show t.recallLimit = s.recallLimit from congrArg Registers.recallLimit hregisters]
  · rwa [show t.scrubTimer = s.scrubTimer from congrArg Registers.scrubTimer hregisters]

/-! ## Resets -/

theorem reset_inRange : RegistersInRange State.reset :=
  ⟨Nat.zero_le _, Nat.zero_le _, Nat.zero_le _, by decide, Nat.zero_le _⟩

/-- A soft reset empties the queues and the staging record, and keeps RECALL_LIMIT (R138). -/
theorem softReset_inRange (h : RegistersInRange s) : RegistersInRange s.softReset := by
  obtain ⟨-, -, -, hlimit, htimer⟩ := h
  have hbegun : ∀ t : State, RegistersInRange t → RegistersInRange t.beginWalk :=
    fun _ ⟨hstaging, hlength, hposition, hlimit, _⟩ => ⟨hstaging, hlength, hposition, hlimit, Nat.zero_le _⟩
  unfold State.softReset
  refine hbegun _ (foldl_invariant RegistersInRange State.softResetPort (fun t p ht => ?_) allPorts _
    ⟨Nat.zero_le _, Nat.zero_le _, Nat.zero_le _, hlimit, htimer⟩)
  unfold State.softResetPort
  split
  · exact ht
  · exact ht

/-! ## The tick (R135, R166, R167) -/

theorem scrub_inRange (h : RegistersInRange s) : RegistersInRange s.scrub := by
  have hqueue : Drains s s.scrub := drains_of_engine (scrub_engine s)
  obtain ⟨hstaging, hlength, hposition, hlimit, -⟩ := h
  refine ⟨?_, hqueue.length.trans hlength, ?_, ?_, Nat.zero_le _⟩
  · rwa [scrub_only_storage]
  · rwa [scrub_only_storage]
  · rwa [scrub_only_storage]

/-- A timer that the next tick raises to less than the interval stays within the largest one: 255 units of 64
microseconds, less one (R136, R166). -/
theorem scrubTimer_below (h0 : s.scrubInterval ≠ 0) (h : ¬ s.ScrubReached) : s.scrubTimer + 1 ≤ 16319 := by
  have hbelow : ¬ s.scrubInterval.toNat * 64 ≤ s.scrubTimer + 1 := fun hle => h ⟨h0, hle⟩
  have hwidth := s.scrubInterval.isLt
  omega

theorem tickScrubber_inRange (h : RegistersInRange s) : RegistersInRange s.tickScrubber := by
  obtain ⟨hstaging, hlength, hposition, hlimit, htimer⟩ := h
  by_cases hrest : s.init = true ∨ s.scrubInterval = 0
  · rw [tickScrubber_at_rest hrest]
    exact ⟨hstaging, hlength, hposition, hlimit, Nat.zero_le _⟩
  obtain ⟨hinit, h0⟩ := not_or.mp hrest
  rw [Bool.not_eq_true] at hinit
  by_cases hahead : s.scrubAhead = true
  · rw [tickScrubber_of_ahead hinit h0 hahead]
    exact ⟨hstaging, hlength, hposition, hlimit, htimer⟩
  rw [Bool.not_eq_true] at hahead
  by_cases hreached : s.ScrubReached
  · rw [tickScrubber_of_reached hinit hahead hreached]
    exact scrub_inRange ⟨hstaging, hlength, hposition, hlimit, htimer⟩
  · rw [tickScrubber_of_below hinit h0 hahead hreached]
    exact ⟨hstaging, hlength, hposition, hlimit, scrubTimer_below h0 hreached⟩

theorem catchUp_inRange (h : RegistersInRange s) : RegistersInRange s.catchUp := by
  unfold State.catchUp
  split
  · split
    · exact h
    · exact h
  · exact registersInRange_of_drains (takeAllDue_registers s) (foldl_drains takeDue_drains allSlots s) h

theorem tickWalk_inRange (h : RegistersInRange s) : RegistersInRange s.tickWalk := by
  unfold State.tickWalk
  split
  · exact h
  · exact h

theorem ticked_inRange (h : RegistersInRange s) : RegistersInRange s.ticked := by
  have hslots : RegistersInRange (allSlots.foldl State.tickSlot s.catchUp) := by
    obtain ⟨slots, hslots⟩ := foldl_tickSlot_only_slots allSlots s.catchUp
    rw [hslots]
    exact catchUp_inRange h
  exact tickWalk_inRange (tickScrubber_inRange hslots)

/-! ## Accesses to the registers (R127 to R136) -/

theorem stage_inRange (h : RegistersInRange s) (value : Word) : RegistersInRange (s.stage value) := by
  unfold State.stage
  split
  · next hroom =>
    obtain ⟨-, hrest⟩ := h
    refine ⟨?_, hrest⟩
    rw [List.length_append]
    exact hroom
  · exact h

theorem postCommand_inRange (h : RegistersInRange s) : RegistersInRange s.postCommand := by
  obtain ⟨-, hlength, hrest⟩ := h
  unfold State.postCommand
  split
  · next hroom =>
    refine ⟨Nat.zero_le _, ?_, hrest⟩
    rw [List.length_append]
    exact hroom
  · exact ⟨Nat.zero_le _, hlength, hrest⟩

theorem readCompletion_inRange (h : RegistersInRange s) : RegistersInRange s.readCompletion := by
  obtain ⟨hstaging, hlength, hposition, hrest⟩ := h
  unfold State.readCompletion
  split
  · next hread => exact ⟨hstaging, hlength, hread.2, hrest⟩
  · exact ⟨hstaging, hlength, hposition, hrest⟩

theorem popCompletion_inRange (h : RegistersInRange s) : RegistersInRange s.popCompletion := by
  unfold State.popCompletion
  split
  · exact h
  · obtain ⟨hstaging, hlength, -, hrest⟩ := h
    exact ⟨hstaging, hlength, Nat.zero_le _, hrest⟩

/-- A write of 0 to RECALL_LIMIT stores 1 (R136). -/
theorem writeRecallLimit_inRange (h : RegistersInRange s) (value : Word) :
    RegistersInRange (s.writeRecallLimit value) := by
  obtain ⟨hstaging, hlength, hposition, -, htimer⟩ := h
  refine ⟨hstaging, hlength, hposition, ?_, htimer⟩
  unfold State.writeRecallLimit
  dsimp only
  split
  · decide
  · next hne => exact hne

theorem writeRegister_inRange (h : RegistersInRange s) (offset : BitVec 8) (value : Word) :
    RegistersInRange (s.writeRegister offset value) := by
  unfold State.writeRegister
  split
  · split
    · exact softReset_inRange h
    · exact h
  · exact h
  · exact h
  · exact stage_inRange h value
  · exact postCommand_inRange h
  · exact popCompletion_inRange h
  · exact writeRecallLimit_inRange h value
  · exact h
  · exact h
  · exact h

end

/-! ## Every command -/

theorem exec_inRange (c : Instr) (s : State) : AnswersBy (Keeps RegistersInRange) s (exec c s) := by
  by_cases hc : actsOnRegisters c = false
  · obtain ⟨t, ht, hedits⟩ := exec_edits c s hc
    obtain ⟨u, hu, hqueue⟩ := exec_drains c s hc
    have htu : u = t := by rw [ht] at hu; cases hu; rfl
    exact ⟨t, ht, registersInRange_of_drains hedits.keeps_registers (htu ▸ hqueue)⟩
  cases c with
  | resetNAssert => exact ⟨_, rfl, fun h => h⟩
  | resetNRelease =>
    refine ⟨_, rfl, fun h => ?_⟩
    split
    · exact reset_inRange
    · exact h
  | initWalkEnd =>
    refine ⟨_, rfl, whenReleased_keeps fun h => ?_⟩
    split
    · exact h
    · exact h
  | softReset value =>
    refine ⟨_, rfl, whenReleased_keeps fun h => ?_⟩
    split
    · exact softReset_inRange h
    · exact h
  | timebaseTick => exact ⟨_, rfl, whenReleased_keeps ticked_inRange⟩
  | scrubRead =>
    refine ⟨_, rfl, whenServing_keeps fun h => ?_⟩
    split
    · exact scrub_inRange h
    · exact h
  | cmdWordWrite value => exact ⟨_, rfl, whenReleased_keeps fun h => stage_inRange h value⟩
  | cmdPost value => exact ⟨_, rfl, whenReleased_keeps postCommand_inRange⟩
  | cplWordRead =>
    refine ⟨_, rfl, fun h => ?_⟩
    split
    · exact h
    · exact readCompletion_inRange h
  | cplPop value => exact ⟨_, rfl, whenReleased_keeps popCompletion_inRange⟩
  | attnCauseWrite value => exact ⟨_, rfl, whenReleased_keeps fun h => h⟩
  | attnEnableWrite value => exact ⟨_, rfl, whenReleased_keeps fun h => h⟩
  | recallLimitWrite value => exact ⟨_, rfl, whenReleased_keeps fun h => writeRecallLimit_inRange h value⟩
  | scrubIntervalWrite value => exact ⟨_, rfl, whenReleased_keeps fun h => h⟩
  | faultClear value => exact ⟨_, rfl, whenReleased_keeps fun h => h⟩
  | registerWriteIgnored offset value =>
    exact ⟨_, rfl, whenReleased_keeps fun h => writeRegister_inRange h offset value⟩
  | _ => exact absurd rfl hc

/-- Settles O59: commands of the claims leave the registers and take commands from the queue's head; the accesses,
the tick and the resets keep the ranges, each by the bound its own condition tests. -/
theorem stepKeepsRegistersInRange : Obligations.StepKeepsRegistersInRange := fun _ _ h hstep =>
  step_keeps_of_exec (P := RegistersInRange) (fun _ _ h => h) exec_inRange h hstep

end Sys2Proof.Machine
end

section
/-! SUPPORT. The soft reset (O6): its ports one by one, and the state it leaves. -/

namespace Sys2Proof.Machine

/-! ## The ports of a soft reset (R116, R138 step 6) -/

/-- The port is TRAINING or UP: a soft reset takes its link down. -/
abbrev Port.Linked (r : Port) : Prop := r.state = .training ∨ r.state = .up

/-- A port's record after a soft reset (R116). -/
def Port.softReset (r : Port) : Port := if r.Linked then reinitRecord .training else r

section
variable {s : State}

theorem softResetPort_of_linked {p : PortId} (h : (s.port p).Linked) :
    s.softResetPort p = s.discardLink p .training := if_pos h

theorem softResetPort_of_not_linked {p : PortId} (h : ¬ (s.port p).Linked) : s.softResetPort p = s := if_neg h

theorem softResetPort_port (s : State) (p q : PortId) :
    (s.softResetPort p).port q = if q = p then (s.port p).softReset else s.port q := by
  unfold Port.softReset
  by_cases h : (s.port p).Linked
  · rw [softResetPort_of_linked h, discardLink_port, if_pos h]
  · rw [softResetPort_of_not_linked h, if_neg h]
    split
    · next hq => rw [hq]
    · rfl

theorem softResetPort_portChange (s : State) (p : PortId) :
    (s.softResetPort p).portChange = true ↔ s.portChange = true ∨ (s.port p).Linked := by
  by_cases h : (s.port p).Linked
  · rw [softResetPort_of_linked h]
    exact iff_of_true rfl (.inr h)
  · rw [softResetPort_of_not_linked h, or_iff_left h]

theorem foldl_softResetPort_port (l : List PortId) (hl : l.Nodup) (s : State) (q : PortId) :
    (l.foldl State.softResetPort s).port q = if q ∈ l then (s.port q).softReset else s.port q := by
  induction l generalizing s with
  | nil => rfl
  | cons p l ih =>
    obtain ⟨hp, hl⟩ := List.nodup_cons.mp hl
    rw [List.foldl_cons, ih hl, softResetPort_port]
    by_cases hq : q = p
    · subst hq
      simp [hp]
    · simp [hq]

theorem foldl_softResetPort_portChange (l : List PortId) (hl : l.Nodup) (s : State) :
    (l.foldl State.softResetPort s).portChange = true ↔ s.portChange = true ∨ ∃ p ∈ l, (s.port p).Linked := by
  induction l generalizing s with
  | nil => simp
  | cons p l ih =>
    obtain ⟨hp, hl⟩ := List.nodup_cons.mp hl
    have hrest : (∃ q ∈ l, ((s.softResetPort p).port q).Linked) ↔ ∃ q ∈ l, (s.port q).Linked :=
      exists_congr fun q => and_congr_right fun hq => by
        have hne : q ≠ p := fun h => hp (h ▸ hq)
        rw [softResetPort_port, if_neg hne]
    rw [List.foldl_cons, ih hl, hrest, softResetPort_portChange, or_assoc, List.exists_mem_cons_iff]

/-- The ports' part of a soft reset reaches the port records and PORT_CHANGE alone. -/
theorem foldl_softResetPort_only (l : List PortId) (s : State) :
    ∃ ports change, l.foldl State.softResetPort s = { s with ports := ports, portChange := change } := by
  refine foldl_invariant (fun t : State => ∃ ports change, t = { s with ports := ports, portChange := change })
    _ (fun t p ht => ?_) l s ⟨_, _, rfl⟩
  obtain ⟨ports, change, rfl⟩ := ht
  unfold State.softResetPort
  split
  · exact ⟨_, _, rfl⟩
  · exact ⟨_, _, rfl⟩

theorem allPorts_nodup : allPorts.Nodup := List.nodup_finRange 4

/-! ## The soft reset (R138) -/

/-- `s` with its queues, engines and tables cleared and the sticky causes clear, before its ports are taken
(R138, steps 1 to 5). -/
def State.cleared (s : State) : State :=
  { s.clearCommands.clearEngines.initTables with cmdOverrun := false, portChange := false }

theorem softReset_eq (s : State) :
    s.softReset = (allPorts.foldl State.softResetPort s.cleared).beginWalk := rfl

theorem cleared_port (s : State) (p : PortId) : s.cleared.port p = s.port p := rfl

theorem beginWalk_port (s : State) (p : PortId) : s.beginWalk.port p = s.port p := rfl

theorem beginWalk_portChange (s : State) : s.beginWalk.portChange = s.portChange := rfl

theorem softReset_port (s : State) (p : PortId) : s.softReset.port p = (s.port p).softReset := by
  rw [softReset_eq, beginWalk_port, foldl_softResetPort_port _ allPorts_nodup, cleared_port]
  exact if_pos (List.mem_finRange p)

/-- PORT_CHANGE is clear before the ports are taken, so it tells that a link went down. -/
theorem softReset_portChange (s : State) : s.softReset.portChange = true ↔ ∃ p, (s.port p).Linked := by
  rw [softReset_eq, beginWalk_portChange, foldl_softResetPort_portChange _ allPorts_nodup,
    or_iff_right (show s.cleared.portChange ≠ true from Bool.false_ne_true)]
  refine exists_congr fun p => ?_
  rw [cleared_port]
  exact and_iff_right (List.mem_finRange p)

/-- What a soft reset keeps; everything else is at its device reset value (R138). -/
theorem softReset_only (h : s.resetHeld = false) : s.softReset = { State.reset with
    pending := s.pending, ports := s.softReset.ports, portChange := s.softReset.portChange, lanes := s.lanes,
    readData := s.readData, attnEnable := s.attnEnable, recallLimit := s.recallLimit,
    scrubInterval := s.scrubInterval, storageBank := s.storageBank, recallBank := s.recallBank,
    linkBank := s.linkBank } := by
  obtain ⟨ports, change, hfold⟩ := foldl_softResetPort_only allPorts s.cleared
  have hreset : s.softReset = { s.cleared with ports := ports, portChange := change }.beginWalk := by
    rw [softReset_eq, hfold]
  have hports : s.softReset.ports = ports := by rw [hreset]; rfl
  have hchange : s.softReset.portChange = change := by rw [hreset]; rfl
  rw [hports, hchange, hreset]
  unfold State.beginWalk State.initTables State.cleared State.clearEngines State.clearCommands State.reset
  dsimp only
  rw [State.initTables, h]

theorem exec_softReset_of_set {value : Word} (h : s.resetHeld = false) (hset : value.getLsbD 0 = true) :
    exec (.softReset value) s = .next s.softReset := by
  show Host.Outcome.next (s.whenReleased _) = _
  rw [whenReleased_of_released h, if_pos hset]

end

/-- Settles O6: the claim clears the part but for what R138 keeps, and takes each linked port into REINIT. -/
theorem softResetClearsTheDirectory : Obligations.SoftResetClearsTheDirectory := fun s _ h hset =>
  ⟨s.softReset, exec_softReset_of_set h hset, softReset_only h, softReset_port s, softReset_portChange s⟩

end Sys2Proof.Machine
end

section
/-! SUPPORT. The register window: staging and posting (O46), completion reads (O47), attention and the fault banks
(O49). -/

namespace Sys2Proof.Machine

/-! ## Staging and posting (R127, R128) -/

section
variable {s : State} {value : Word}

theorem stage_of_room (h : s.staging.length < 6) : s.stage value = { s with staging := s.staging ++ [value] } :=
  if_pos h

theorem stage_of_full (h : 6 ≤ s.staging.length) : s.stage value = s := if_neg (Nat.not_lt.mpr h)

theorem postCommand_of_room (h : s.cmdQueue.length < 16) : s.postCommand =
    { s with staging := [], cmdQueue := s.cmdQueue ++ [stagedRecord s.staging] } := if_pos h

theorem postCommand_of_full (h : 16 ≤ s.cmdQueue.length) :
    s.postCommand = { s with staging := [], cmdOverrun := true } := if_neg (Nat.not_lt.mpr h)

theorem exec_cmdWordWrite (h : s.resetHeld = false) : exec (.cmdWordWrite value) s = .next (s.stage value) :=
  congrArg Host.Outcome.next (whenReleased_of_released h _)

theorem exec_cmdPost (h : s.resetHeld = false) : exec (.cmdPost value) s = .next s.postCommand :=
  congrArg Host.Outcome.next (whenReleased_of_released h _)

/-- A word of the staging record when `n` words of `l` are staged: those not staged read 0. -/
theorem getD_take (l : List Word) (n i : Nat) :
    (l.take n).getD i 0 = if i < n then l.getD i 0 else 0 := by
  rw [List.getD_eq_getElem?_getD, List.getElem?_take, List.getD_eq_getElem?_getD]
  split
  · rfl
  · rfl

theorem stagedRecord_take (w1 w2 w3 w4 w5 w6 : Word) (n : Nat) :
    stagedRecord ([w1, w2, w3, w4, w5, w6].take n) =
      ⟨if 1 ≤ n then w1 else 0, if 2 ≤ n then w2 else 0, if 3 ≤ n then w3 else 0,
        if 4 ≤ n then w4 else 0, if 5 ≤ n then w5 else 0, if 6 ≤ n then w6 else 0⟩ := by
  unfold stagedRecord
  simp only [getD_take]
  rfl

end

/-- Settles O46: the branches of the two writes, and the words not staged read as 0. -/
theorem stagingAndPosting : Obligations.StagingAndPosting := by
  intro s value h
  refine ⟨fun hroom => ?_, fun hfull => ?_, fun n w1 w2 w3 w4 w5 w6 _ hstaged hroom => ?_, fun hfull => ?_⟩
  · rw [exec_cmdWordWrite h, stage_of_room hroom]
  · rw [exec_cmdWordWrite h, stage_of_full hfull]
  · rw [exec_cmdPost h, postCommand_of_room hroom, hstaged, stagedRecord_take]
  · rw [exec_cmdPost h, postCommand_of_full hfull]

/-! ## Completion reads (R130, R131) -/

section
variable {s : State} {value : Word}

/-- A read before position 8 of the head record returns its next word. -/
theorem readCompletion_of_word {c : Completion} {rest : List Completion} (h : s.completions = c :: rest)
    (hread : s.readPosition < 8) : s.readCompletion =
      { s with readData := completionWord c s.readPosition, readPosition := s.readPosition + 1 } := by
  have hword : nextCompletionWord s = completionWord c s.readPosition := by
    unfold nextCompletionWord
    rw [h]
    exact if_pos hread
  unfold State.readCompletion
  rw [if_pos ⟨by rw [h]; rfl, hread⟩, hword]

/-- A read past the head record's last word returns 0. -/
theorem readCompletion_of_end (h : 8 ≤ s.readPosition) : s.readCompletion = { s with readData := 0 } := by
  have hword : nextCompletionWord s = 0 := by
    unfold nextCompletionWord
    split
    · rfl
    · exact if_neg (Nat.not_lt.mpr h)
  unfold State.readCompletion
  rw [if_neg fun hread => Nat.not_lt.mpr h hread.2, hword]

/-- A read of an empty queue returns 0. -/
theorem readCompletion_of_nil (h : s.completions = []) : s.readCompletion = { s with readData := 0 } := by
  have hword : nextCompletionWord s = 0 := by
    unfold nextCompletionWord
    rw [h]
  unfold State.readCompletion
  rw [if_neg fun hread => by rw [h] at hread; exact Bool.noConfusion hread.1, hword]

theorem popCompletion_of_cons {c : Completion} {rest : List Completion} (h : s.completions = c :: rest) :
    s.popCompletion = { s with completions := rest, readPosition := 0 } := by
  unfold State.popCompletion
  rw [h]

theorem popCompletion_of_nil (h : s.completions = []) : s.popCompletion = s := by
  unfold State.popCompletion
  rw [h]

theorem exec_cplWordRead_of_released (h : s.resetHeld = false) :
    exec .cplWordRead s = .next s.readCompletion := by
  show Host.Outcome.next (if s.resetHeld then _ else _) = _
  rw [h]
  rfl

theorem exec_cplPop (h : s.resetHeld = false) : exec (.cplPop value) s = .next s.popCompletion :=
  congrArg Host.Outcome.next (whenReleased_of_released h _)

end

/-- Settles O47, by the branches of the read and of the pop. -/
theorem completionsAreReadAndPopped : Obligations.CompletionsAreReadAndPopped := by
  intro s value h
  refine ⟨fun c rest hqueue => ⟨fun hread => ?_, fun hend => ?_, ?_⟩, fun hempty => ⟨?_, ?_⟩⟩
  · rw [exec_cplWordRead_of_released h, readCompletion_of_word hqueue hread]
  · rw [exec_cplWordRead_of_released h, readCompletion_of_end hend.ge]
  · rw [exec_cplPop h, popCompletion_of_cons hqueue]
  · rw [exec_cplWordRead_of_released h, readCompletion_of_nil hempty]
  · rw [exec_cplPop h, popCompletion_of_nil hempty]

/-! ## The attention causes and pin (R133, R134) -/

theorem cplReady_iff (s : State) : cplReady s = true ↔ s.completions ≠ [] := by
  rw [cplReady, Bool.not_eq_true', List.isEmpty_eq_false_iff]

theorem faultCause_iff (s : State) : faultCause s = true ↔
    s.storageBank.valid = true ∨ s.recallBank.valid = true ∨ s.linkBank.valid = true := by
  rw [faultCause, Bool.or_eq_true, Bool.or_eq_true, or_assoc]

/-- Two words share a set bit exactly when their conjunction is not 0. -/
theorem and_ne_zero_iff {w : Nat} (x y : BitVec w) :
    x &&& y ≠ 0 ↔ ∃ i : Fin w, x.getLsbD i = true ∧ y.getLsbD i = true := by
  rw [← not_iff_not, not_not, not_exists]
  constructor
  · intro h i hi
    have hbit : (x &&& y).getLsbD i = true := by rw [BitVec.getLsbD_and, hi.1, hi.2]; rfl
    rw [h] at hbit
    simp at hbit
  · intro h
    refine BitVec.eq_of_getLsbD_eq fun i hi => ?_
    have hbit := h ⟨i, hi⟩
    rw [← Bool.and_eq_true, Bool.not_eq_true] at hbit
    simpa using hbit

theorem exists_fin_four {P : Fin 4 → Prop} : (∃ i, P i) ↔ P 0 ∨ P 1 ∨ P 2 ∨ P 3 := by
  simp [Fin.exists_fin_succ]

/-- The bits of a word written out bit by bit. -/
theorem ofBools_bits (a b c d : Bool) :
    let x := BitVec.ofBool a ++ BitVec.ofBool b ++ BitVec.ofBool c ++ BitVec.ofBool d
    x.getLsbD 0 = d ∧ x.getLsbD 1 = c ∧ x.getLsbD 2 = b ∧ x.getLsbD 3 = a := by
  revert a b c d
  decide

/-- Each cause in its place of ATTN_CAUSE (R180). -/
theorem attnCauses_bits (s : State) :
    (attnCauses s).getLsbD 0 = cplReady s ∧ (attnCauses s).getLsbD 1 = faultCause s ∧
    (attnCauses s).getLsbD 2 = s.cmdOverrun ∧ (attnCauses s).getLsbD 3 = s.portChange :=
  ofBools_bits _ _ _ _

theorem attnAsserted_iff (s : State) : attnAsserted s = true ↔ s.resetHeld = false ∧
    (cplReady s = true ∧ s.attnEnable.getLsbD 0 = true ∨ faultCause s = true ∧ s.attnEnable.getLsbD 1 = true ∨
      s.cmdOverrun = true ∧ s.attnEnable.getLsbD 2 = true ∨
      s.portChange = true ∧ s.attnEnable.getLsbD 3 = true) := by
  obtain ⟨hready, hfault, hoverrun, hchange⟩ := attnCauses_bits s
  rw [attnAsserted, Bool.and_eq_true, Bool.not_eq_true', bne_iff_ne, and_ne_zero_iff, exists_fin_four,
    ← hready, ← hfault, ← hoverrun, ← hchange]
  exact Iff.rfl

/-! ## The fault banks (R171) -/

/-- A STORAGE fault is stored in a bank not valid. -/
theorem recordStorage_of_not_valid {b : StorageBank} (h : b.valid = false) (severity : Severity) (w : WindowId)
    (d : Detector) (free : Bool) : recordStorage b severity w d free = ⟨true, false, severity, w, d, free⟩ :=
  if_neg (Bool.not_eq_true _ ▸ h)

/-- An UNCORRECTED fault takes the place of a CORRECTED one, with overflow set. -/
theorem recordStorage_of_higher {b : StorageBank} (h : b.valid = true) (hb : b.severity = .corrected)
    (w : WindowId) (d : Detector) (free : Bool) :
    recordStorage b .uncorrected w d free = ⟨true, true, .uncorrected, w, d, free⟩ := by
  rw [recordStorage, if_pos h, if_pos ⟨hb, rfl⟩]

/-- A fault of no higher severity sets overflow alone. -/
theorem recordStorage_of_not_higher {b : StorageBank} {severity : Severity} (h : b.valid = true)
    (hb : b.severity = .uncorrected ∨ severity = .corrected) (w : WindowId) (d : Detector) (free : Bool) :
    recordStorage b severity w d free = { b with overflow := true } := by
  have hnot : ¬ (b.severity = .corrected ∧ severity = .uncorrected) := by
    rintro ⟨hcorrected, rfl⟩
    rcases hb with hb | hb
    · rw [hcorrected] at hb
      cases hb
    · cases hb
  rw [recordStorage, if_pos h, if_neg hnot]

/-- Settles O49: the causes bit by bit, and the branches of each bank's recording. -/
theorem attentionAndBanks : Obligations.AttentionAndBanks := by
  refine ⟨fun s => ⟨cplReady_iff s, faultCause_iff s, attnAsserted_iff s⟩, fun b severity w d free => ⟨?_, ?_, ?_⟩,
    fun _ _ _ _ => rfl, fun _ _ _ => rfl⟩
  · exact fun h => recordStorage_of_not_valid h severity w d free
  · rintro h hb rfl
    exact recordStorage_of_higher h hb w d free
  · exact fun h hb => recordStorage_of_not_higher h hb w d free

end Sys2Proof.Machine
end

section
/-! SUPPORT. Claims held back: RESET_N held low (O4) and the INIT walk (O7); the invariants at device reset (O51). -/

namespace Sys2Proof.Machine

/-! ## RESET_N held low (R137) -/

section
variable {s : State}

theorem whenReleased_of_held (h : s.resetHeld = true) (f : State → State) : s.whenReleased f = s := if_pos h

theorem whenServing_of_held (h : s.resetHeld = true) (f : State → State) : s.whenServing f = s := if_pos (.inl h)

theorem exec_resetNRelease_of_held (h : s.resetHeld = true) :
    exec .resetNRelease s = .next { State.reset with pending := s.pending } :=
  congrArg Host.Outcome.next (if_pos h)

theorem exec_cplWordRead_of_held (h : s.resetHeld = true) :
    exec .cplWordRead s = .next { s with readData := 0 } := congrArg Host.Outcome.next (if_pos h)

/-- Held in reset, the part acts on its release alone; a stored error and the word a read returns are no acts of
the part. -/
theorem exec_of_held (h : s.resetHeld = true) (c : Instr) (hrelease : c ≠ .resetNRelease)
    (herror : ∀ w b, c ≠ .storedError w b) (hread : c ≠ .cplWordRead) : exec c s = .next s := by
  have hreleased : ∀ f, (Host.Outcome.next (s.whenReleased f) : Host.Outcome State Fault Refusal) = .next s :=
    fun f => congrArg _ (whenReleased_of_held h f)
  have hserving : ∀ f, (Host.Outcome.next (s.whenServing f) : Host.Outcome State Fault Refusal) = .next s :=
    fun f => congrArg _ (whenServing_of_held h f)
  cases c with
  | resetNRelease => exact absurd rfl hrelease
  | storedError w b => exact absurd rfl (herror w b)
  | cplWordRead => exact absurd rfl hread
  | resetNAssert =>
    have hsame : { s with resetHeld := true } = s := by rw [← h]
    exact congrArg Host.Outcome.next hsame
  | initWalkEnd | softReset value | timebaseTick | readyReceived p f | creditReceived p f | reinitReceived p f
  | agentMessageArrival p f | reinitDeparture p | creditDeparture p | outboundDeparture p | cmdWordWrite value
  | cmdPost value | cplPop value | attnCauseWrite value | attnEnableWrite value | recallLimitWrite value
  | scrubIntervalWrite value | faultClear value | registerWriteIgnored offset value => exact hreleased _
  | hello p | goodbye p | release p | recallAck p | lookup | replay | readyDeparture p | refill p
  | recallReminder k | recallTimeout k | scrubRead | purgeVisit | badCommand | openContext | closeContext | join
  | leave | addWindow | modifyWindow | retireWindow | fenceAgent | unfenceAgent | queryWindow | queryAgent
  | queryContext | portEnable | portDisable | portReset => exact hserving _

theorem readRegister_of_held (h : s.resetHeld = true) (offset : BitVec 8) : readRegister s offset = 0 := if_pos h

theorem attnAsserted_of_held (h : s.resetHeld = true) : attnAsserted s = false := by
  rw [attnAsserted, h]
  rfl

end

/-- Settles O4: held in reset, neither `whenReleased` nor `whenServing` runs a command; the release starts afresh. -/
theorem resetPinHoldsAndReleases : Obligations.ResetPinHoldsAndReleases :=
  ⟨fun _ => rfl, fun _ h => ⟨exec_resetNRelease_of_held h, exec_of_held h, exec_cplWordRead_of_held h,
    readRegister_of_held h, attnAsserted_of_held h⟩⟩

/-! ## The INIT walk (R23) -/

/-- A write to CONTROL with SOFT_RESET clear (R126). -/
theorem exec_softReset_of_clear {value : Word} (h : value.getLsbD 0 = false) (s : State) :
    exec (.softReset value) s = .next s := by
  have hclear : ¬ value.getLsbD 0 = true := by
    rw [h]
    exact nofun
  refine congrArg Host.Outcome.next ?_
  cases hheld : s.resetHeld with
  | true => exact whenReleased_of_held hheld _
  | false => exact (whenReleased_of_released hheld _).trans (if_neg hclear)

/-- Settles O7: each of these claims is taken only while the part serves. -/
theorem walkHoldsBackTheClaims : Obligations.WalkHoldsBackTheClaims := by
  refine ⟨fun s _ h => exec_softReset_of_clear h s, fun s hi => ?_⟩
  have hserving : ∀ f, (Host.Outcome.next (s.whenServing f) : Host.Outcome State Fault Refusal) = .next s :=
    fun f => congrArg _ (whenServing_of_walk hi f)
  refine ⟨fun p => ⟨hserving _, hserving _, hserving _, hserving _, hserving _, hserving _⟩,
    fun k => ⟨hserving _, hserving _⟩, fun c hc => ?_⟩
  fin_cases hc <;> exact hserving _

/-! ## Device reset (R137) -/

theorem reset_portsBounded : PortsBounded State.reset := fun _ =>
  ⟨Nat.zero_le _, Nat.zero_le _, Nat.zero_le _, fun _ => ⟨rfl, rfl, rfl⟩, fun _ => rfl⟩

/-- No slot is ACTIVE and nothing is queued. -/
theorem reset_reservationsKept : ReservationsKept State.reset := by
  have hactive : State.reset.activeSlots = 0 :=
    List.countP_eq_zero.mpr fun _ _ => by rw [decide_eq_true_iff]; exact nofun
  refine ⟨?_, Nat.zero_le _, nofun⟩
  rw [hactive]
  rfl

/-- No window has a holder. -/
theorem reset_heldCountsExact : HeldCountsExact State.reset := fun a => by
  have hnone : State.reset.holdings a = 0 := List.countP_eq_zero.mpr fun w _ => by
    rw [show (State.reset.window w).holders = 0 from rfl, hasAgent_zero]
    exact nofun
  rw [hnone]
  rfl

theorem reset_quietInWalk : QuietInWalk State.reset := fun _ =>
  ⟨rfl, rfl, rfl, rfl, rfl, rfl, rfl, rfl, rfl, rfl, rfl, rfl⟩

/-- Every agent is ABSENT, with nothing owed. -/
theorem reset_purgesTracked : PurgesTracked State.reset := by
  refine ⟨reset_quietInWalk, fun a => ⟨nofun, nofun⟩, fun a => ⟨?_, iff_of_false nofun nofun⟩⟩
  rw [show State.reset.purgeSet = 0 from rfl, hasAgent_zero]
  exact iff_of_false nofun nofun

theorem reset_waitsBounded : WaitsBounded State.reset := ⟨reset_quietInWalk, fun _ => nofun⟩

theorem reset_changesNamed : ChangesNamed State.reset :=
  fun _ => ⟨iff_of_false nofun (not_not_intro rfl), nofun⟩

/-- No change is in flight, no purge runs and nothing waits. -/
theorem reset_settled : Settled State.reset := ⟨fun _ h => (nomatch h.1), fun _ => nofun, nofun, nofun⟩

/-- Settles O51: every table is empty, so each record reads at its device reset value. -/
theorem invariantsHoldAtReset : Obligations.InvariantsHoldAtReset :=
  ⟨reset_canonical [], reset_portsBounded, reset_reservationsKept, reset_heldCountsExact, reset_subsetsKept,
    reset_purgesTracked, poolListed_of_empty rfl, reset_inRange, reset_waitsBounded, reset_changesNamed,
    reset_settled⟩

end Sys2Proof.Machine
end

section
/-! SUPPORT. The places of the completion queue (R139, R140): what each shared operation leaves of the reservations,
of the slots that hold them and of the fence wait list. -/

namespace Sys2Proof.Machine

/-! ## The books of the command engine -/

/-- The command engine's own state, and the state of each change slot: what the places of the completion queue are
counted from (R139). -/
def State.books (s : State) : Engine × (SlotId → SlotState) := (s.engine, fun k => (s.slot k).state)

theorem books_of_slots {s t : State} (hengine : t.engine = s.engine)
    (hslots : ∀ k, (t.slot k).state = (s.slot k).state) : t.books = s.books :=
  Prod.ext hengine (funext hslots)

theorem books_of_ledger {s t : State} (hengine : t.engine = s.engine) (hledger : t.ledger = s.ledger) :
    t.books = s.books := books_of_slots hengine fun k => by rw [slot_of_ledger hledger]

/-- An update of a slot that leaves its state. -/
theorem setSlot_books (s : State) (k : SlotId) {r : Slot} (h : r.state = (s.slot k).state) :
    (s.setSlot k r).books = s.books := books_of_slots rfl fun j => by
  rw [State.setSlot_slot]
  split
  · next hj => rw [h, hj]
  · rfl

theorem place_books (s : State) (p : PortId) (m : OutMsg) : (s.place p m).books = s.books :=
  books_of_ledger (place_engine s p m) (place_ledger s p m)

theorem dropHolder_books (s : State) (w : WindowId) (a : AgentId) : (s.dropHolder w a).books = s.books :=
  books_of_ledger (dropHolder_engine s w a) (dropHolder_ledger s w a)

theorem dropPending_books (s : State) (k : SlotId) (a : AgentId) : (s.dropPending k a).books = s.books :=
  setSlot_books s k rfl

theorem dropAnswer_books (s : State) (k : SlotId) (a : AgentId) : (s.dropAnswer k a).books = s.books := by
  unfold State.dropAnswer
  split
  · exact (dropHolder_books _ _ a).trans (dropPending_books s k a)
  · exact dropPending_books s k a

theorem applyAdd_books (s : State) (w : WindowId) (c : ContextId) (base : LocalPage) (v : NewValues) :
    (s.applyAdd w c base v).books = s.books :=
  books_of_slots (applyAdd_engine s w c base v) fun k =>
    congrArg Slot.state (dropHolders_slot s w (s.window w).holders k)

theorem changeEffect_books (s : State) (z : ChangeSubject) (v : NewValues) :
    (s.changeEffect z v).books = s.books :=
  books_of_slots (changeEffect_engine s z v) fun k => (changeEffect_recallStep s z v k).state

theorem leaveFirst_books (s : State) (k : SlotId) : (s.leaveFirst k).books = s.books :=
  books_of_slots (leaveFirst_engine s k) fun j => (leaveFirst_recallStep s k j).state

theorem firstRecall_books (s : State) (kept : Option AgentId) (k : SlotId) (a : AgentId) :
    (s.firstRecall kept k a).books = s.books := by
  unfold State.firstRecall
  split
  · exact place_books s _ _
  · exact setSlot_books s k rfl

theorem endPurges_books (s : State) (kept : Option AgentId) : (s.endPurges kept).books = s.books :=
  books_of_ledger (endPurges_engine s kept) (endPurges_ledger s kept)

theorem purgeStart_books (s : State) (a : AgentId) (target : PurgeTarget) :
    (s.purgeStart a target).books = s.books := books_of_slots (purgeStart_engine s a target) fun k => by
  rw [(purgeStart_started s a target).slot]
  split
  · rfl
  · rfl

theorem fence_books (s : State) (a : AgentId) : (s.fence a).books = s.books :=
  books_of_slots (fence_engine s a) fun k => (fence_recallStep s a k).state

theorem depart_books (s : State) (a : AgentId) : (s.depart a).books = s.books := by
  unfold State.depart
  dsimp only
  split
  · exact purgeStart_books s a .absent
  · split
    · rfl
    · rfl
  · rfl
  · rfl

theorem portPurged_books (s : State) (p : PortId) (d : Destination) : (s.portPurged p d).books = s.books := by
  have hdiscard : (s.discardLink p d).engine = s.engine := rfl
  exact books_of_slots (((losePorts_engine _ p).trans (dropEntries_engine _ _)).trans hdiscard) fun k => by
    rw [(portPurged s p d).slot k]

theorem enterUp_books (s : State) (p : PortId) : (s.enterUp p).books = s.books :=
  books_of_ledger (enterUp_engine s p) (enterUp_ledger s p)

theorem refillSlot_books (s : State) (p : PortId) (k : SlotId) : (s.refillSlot p k).books = s.books := by
  unfold State.refillSlot
  split
  · refine foldl_keeps State.books (fun t a => t.refillRecall p k a) (fun t a => ?_) _ s
    unfold State.refillRecall
    split
    · exact (setSlot_books _ k (by rw [place_slot])).trans (place_books t p _)
    · rfl
  · rfl

theorem takeReminder_books (s : State) (k : SlotId) : (s.takeReminder k).books = s.books := by
  have hmarked : (s.setSlot k (s.slot k).reminded).books = s.books := setSlot_books s k rfl
  exact (books_of_ledger (s := s.setSlot k (s.slot k).reminded) (takeReminder_engine s k)
    (takeReminder_ledger s k)).trans hmarked

theorem lapse_books (s : State) (k : SlotId) : (s.lapse k).books = s.books := by
  have hlapsed : (s.setSlot k (s.slot k).lapsed).books = s.books := setSlot_books s k rfl
  exact (books_of_ledger (s := s.setSlot k (s.slot k).lapsed) (lapse_engine s k) (lapse_ledger s k)).trans hlapsed

theorem tickSlot_books (s : State) (k : SlotId) : (s.tickSlot k).books = s.books := by
  unfold State.tickSlot
  dsimp only
  split
  · exact setSlot_books s k rfl
  · rfl

theorem tickScrubber_books (s : State) : s.tickScrubber.books = s.books := by
  refine books_of_ledger ?_ (tickScrubber_ledger s)
  unfold State.tickScrubber
  split
  · rfl
  split
  · rfl
  split
  · exact scrub_engine s
  · rfl

/-! ## The places kept -/

/-- The places of the completion queue while the claims of `n` commands are under way: one reservation for each
ACTIVE slot, for each entry of the fence wait list and for each of these commands, within the queue's 16 places, and
fewer while a head waits for a slot (R139, R140, R141). -/
def PlacesKept (n : Nat) (s : State) : Prop :=
  s.reservations = s.activeSlots + s.fenceWait.length + n ∧
  s.completions.length + s.reservations ≤ 16 ∧
  (s.slotWait = true → s.completions.length + s.reservations < 16)

theorem reservationsKept_iff (s : State) : ReservationsKept s ↔ PlacesKept 0 s := Iff.rfl

theorem activeSlots_of_states {s t : State} (h : ∀ k, (t.slot k).state = (s.slot k).state) :
    t.activeSlots = s.activeSlots := by simp only [State.activeSlots, h]

/-- A slot that becomes ACTIVE. -/
theorem activeSlots_fill {s t : State} {k : SlotId} (hs : (s.slot k).state = .free)
    (ht : (t.slot k).state = .active) (h : ∀ j, j ≠ k → (t.slot j).state = (s.slot j).state) :
    t.activeSlots = s.activeSlots + 1 :=
  countP_finRange_of_differ k (by rw [ht]; rfl) (by rw [hs]; rfl) fun j hj => by rw [h j hj]

/-- The places read the books alone. -/
theorem placesKept_of_books {n : Nat} {s t : State} (h : t.books = s.books) (hs : PlacesKept n s) :
    PlacesKept n t := by
  obtain ⟨hengine, hslots⟩ := Prod.ext_iff.mp h
  obtain ⟨hreserved, hwithin, hwait⟩ := hs
  have hcompletions : t.completions = s.completions := congrArg Engine.completions hengine
  have hreservations : t.reservations = s.reservations := congrArg Engine.reservations hengine
  have hslotWait : t.slotWait = s.slotWait := congrArg Engine.slotWait hengine
  have hfenceWait : t.fenceWait = s.fenceWait := congrArg Engine.fenceWait hengine
  unfold PlacesKept
  rw [hcompletions, hreservations, hslotWait, hfenceWait, activeSlots_of_states fun k => congrFun hslots k]
  exact ⟨hreserved, hwithin, hwait⟩

/-- A claim from `s` to `t` leaves a place for every command that it found under way. -/
def KeepsPlaces (s t : State) : Prop := ∀ n, PlacesKept n s → PlacesKept n t

theorem KeepsPlaces.refl (s : State) : KeepsPlaces s s := fun _ h => h

theorem KeepsPlaces.trans {s t u : State} (h : KeepsPlaces s t) (h' : KeepsPlaces t u) : KeepsPlaces s u :=
  fun n hs => h' n (h n hs)

theorem keepsPlaces_of_books {s t : State} (h : t.books = s.books) : KeepsPlaces s t :=
  fun _ => placesKept_of_books h

theorem foldl_keepsPlaces {β : Type} {op : State → β → State} (h : ∀ s b, KeepsPlaces s (op s b)) (l : List β)
    (s : State) : KeepsPlaces s (l.foldl op s) :=
  fun n => foldl_invariant (PlacesKept n) op (fun t b => h t b n) l s

/-- A claim from `s` to `t` completes one of the commands that it found under way. -/
def PaysPlace (s t : State) : Prop := ∀ n, PlacesKept (n + 1) s → PlacesKept n t

theorem KeepsPlaces.pays {s t u : State} (h : KeepsPlaces s t) (h' : PaysPlace t u) : PaysPlace s u :=
  fun n hs => h' n (h (n + 1) hs)

theorem PaysPlace.keeps {s t u : State} (h : PaysPlace s t) (h' : KeepsPlaces t u) : PaysPlace s u :=
  fun n hs => h' n (h n hs)

/-! ## Reservations made and used (R140) -/

/-- A command taken reserves a place that is left. -/
theorem takeCommand_places {n : Nat} {s : State} (hroom : s.HasReservation) (h : PlacesKept n s) :
    PlacesKept (n + 1) s.takeCommand := by
  obtain ⟨hreserved, -, -⟩ := h
  refine ⟨?_, ?_, nofun⟩
  · show s.reservations + 1 = s.activeSlots + s.fenceWait.length + (n + 1)
    omega
  · show s.completions.length + (s.reservations + 1) ≤ 16
    exact hroom

/-- Records posted go into the places reserved for them. -/
theorem postAll_places {n : Nat} {s : State} (cs : List Completion) (h : PlacesKept (n + cs.length) s) :
    PlacesKept n (s.postAll cs) := by
  obtain ⟨hreserved, hwithin, hwait⟩ := h
  rw [postAll_eq]
  have hused : (s.completions ++ cs).length + (s.reservations - cs.length)
      = s.completions.length + s.reservations := by
    rw [List.length_append]
    omega
  refine ⟨?_, hused.trans_le hwithin, fun hw => hused.trans_lt (hwait hw)⟩
  show s.reservations - cs.length = s.activeSlots + s.fenceWait.length + n
  omega

theorem post_pays (s : State) (c : Completion) : PaysPlace s (s.post c) := fun _ h => postAll_places [c] h

/-- An entry that leaves the fence wait list leaves its reservation to its command's record. -/
theorem clearFences_places {n : Nat} {s : State} (h : PlacesKept n s) :
    PlacesKept (n + s.fencesDone.length) s.clearFences := by
  obtain ⟨hreserved, hwithin, hwait⟩ := h
  have hsplit := List.length_eq_length_filter_add (l := s.fenceWait)
    (fun f => decide ((s.agent f.agent).state = .fenced))
  have hlist : s.clearFences.fenceWait
      = s.fenceWait.filter fun f => !decide ((s.agent f.agent).state = .fenced) := by
    simp [State.clearFences]
  refine ⟨?_, hwithin, hwait⟩
  rw [hlist]
  show s.reservations = s.activeSlots + _ + (n + (s.fenceWait.filter _).length)
  omega

/-- A FREE slot that is filled holds the reservation of its command. -/
theorem fillSlot_pays {s : State} (kept : Option AgentId) {k : SlotId} (hfree : (s.slot k).state = .free)
    (z : ChangeSubject) (v : NewValues) (tag : Half) : PaysPlace s (s.fillSlot kept k z v tag) := fun n h => by
  obtain ⟨hreserved, hwithin, hwait⟩ := h
  have hopened : (s.slotOpened k z v tag).engine = s.engine := fillRecords_engine { s with serial := s.nextSerial } k z
  have hcount : (s.slotOpened k z v tag).activeSlots = s.activeSlots + 1 :=
    activeSlots_fill hfree (by rw [State.slotOpened, State.setSlot_slot, if_pos rfl]) fun j hj => by
      rw [State.slotOpened, State.setSlot_slot, if_neg hj, recordsFilled_slot]
  have hplaces : PlacesKept n (s.slotOpened k z v tag) := by
    unfold PlacesKept
    rw [hcount, show (s.slotOpened k z v tag).reservations = s.reservations from congrArg Engine.reservations hopened,
      show (s.slotOpened k z v tag).completions = s.completions from congrArg Engine.completions hopened,
      show (s.slotOpened k z v tag).fenceWait = s.fenceWait from congrArg Engine.fenceWait hopened,
      slotWait_of_engine hopened]
    exact ⟨by omega, hwithin, hwait⟩
  rw [fillSlot_eq]
  exact placesKept_of_books (foldl_keeps State.books _ (fun t a => firstRecall_books t kept k a) _ _) hplaces

/-! ## The end of a claim (R91, R141) -/

/-- A change that completes leaves its slot's reservation to its record. -/
theorem completeSlot_places {n : Nat} {s : State} {k : SlotId} (hk : (s.slot k).state = .active)
    (h : PlacesKept n s) : PlacesKept (n + 1) (s.completeSlot k).1 := by
  obtain ⟨hreserved, hwithin, hwait⟩ := h
  have hengine := completeSlot_engine s k
  have hcount : s.activeSlots = (s.completeSlot k).1.activeSlots + 1 :=
    activeSlots_fill (completeSlot_state s k) hk fun j hj => ((completeSlot_recallStep s hj).state).symm
  unfold PlacesKept
  rw [show (s.completeSlot k).1.reservations = s.reservations from congrArg Engine.reservations hengine,
    show (s.completeSlot k).1.completions = s.completions from congrArg Engine.completions hengine,
    show (s.completeSlot k).1.fenceWait = s.fenceWait from congrArg Engine.fenceWait hengine,
    slotWait_of_engine hengine]
  exact ⟨by omega, hwithin, hwait⟩

theorem completeIfEmptied_places {n : Nat} {x : State × List Completion} (k : SlotId)
    (h : PlacesKept (n + x.2.length) x.1) :
    PlacesKept (n + (completeIfEmptied x k).2.length) (completeIfEmptied x k).1 := by
  unfold completeIfEmptied
  split
  · next hk =>
    dsimp only
    rw [List.length_append]
    exact completeSlot_places hk.1 h
  · exact h

theorem completeEmptied_places {n : Nat} {s : State} (h : PlacesKept n s) :
    PlacesKept (n + s.completeEmptied.2.length) s.completeEmptied.1 := by
  have hleft := placesKept_of_books (foldl_keeps State.books _ leaveFirst_books allSlots s) h
  unfold State.completeEmptied
  generalize allSlots.foldl State.leaveFirst s = t at hleft ⊢
  exact foldl_invariant (fun x : State × List Completion => PlacesKept (n + x.2.length) x.1) completeIfEmptied
    (fun _ k => completeIfEmptied_places k) allSlots (t, []) hleft

theorem settle_keepsPlaces (s : State) (kept : Option AgentId) (late : Bool) :
    KeepsPlaces s (s.settle kept late) := fun n h => by
  have hended := placesKept_of_books (endPurges_books _ kept) (completeEmptied_places h)
  unfold State.settle
  dsimp only
  generalize s.completeEmptied.1.endPurges kept = u at hended
  have hcleared := clearFences_places hended
  refine postAll_places _ ?_
  have hlength : (if late = true then u.fencesDone.map u.fenceRecord ++ s.completeEmptied.2
      else s.completeEmptied.2 ++ u.fencesDone.map u.fenceRecord).length
      = s.completeEmptied.2.length + u.fencesDone.length := by
    split
    · rw [List.length_append, List.length_map, Nat.add_comm]
    · rw [List.length_append, List.length_map]
  rw [hlength, ← Nat.add_assoc]
  exact hcleared

/-- A head that is taken, or left to wait for a slot, while a place is left for it. -/
theorem carryOut_keepsPlaces {s : State} (hroom : s.HasReservation) (kept : Option AgentId) (late : Bool)
    (r : CmdRecord) (j : Judgement) : KeepsPlaces s (s.carryOut kept late r j) := fun n h => by
  have htake := takeCommand_places hroom h
  cases j with
  | refused status => exact post_pays _ _ n htake
  | immediate z v => exact post_pays _ _ n (placesKept_of_books (changeEffect_books _ z v) htake)
  | needsSlot z v =>
    unfold State.carryOut
    dsimp only
    split
    · exact ⟨h.1, h.2.1, fun _ => hroom⟩
    · next k hk =>
      exact settle_keepsPlaces _ kept late n
        (fillSlot_pays kept (s := s.takeCommand) (freeSlot_state hk) z v (recordTag r) n htake)

/-- The second examination finds a place left: fewer than 16 are used while a head waits. -/
theorem reconsider_keepsPlaces (s : State) (kept : Option AgentId) : KeepsPlaces s (s.reconsider kept) :=
  fun n h => by
  unfold State.reconsider
  split
  · next hwait =>
    split
    · exact carryOut_keepsPlaces (h.2.2 hwait.1) kept true _ _ n h
    · exact h
  · exact h

theorem finish_keepsPlaces (s : State) (caller : Option AgentId) : KeepsPlaces s (s.finish caller) := by
  unfold State.finish
  exact (settle_keepsPlaces s _ false).trans (reconsider_keepsPlaces _ _)

/-- Steps of a claim that leave the books, and the claim's end. -/
theorem keepsPlaces_of_finish {s t : State} (h : t.books = s.books) (caller : Option AgentId) :
    KeepsPlaces s (t.finish caller) := (keepsPlaces_of_books h).trans (finish_keepsPlaces t caller)

end Sys2Proof.Machine
end

section
/-! SUPPORT. The places of the completion queue through every claim (O53). -/

namespace Sys2Proof.Machine

/-! ## Claims that leave the books, or that end with a claim's end -/

theorem enterReinit_keepsPlaces (s : State) (p : PortId) (d : Destination) : KeepsPlaces s (s.enterReinit p d) := by
  rw [enterReinit_eq]
  exact keepsPlaces_of_finish (portPurged_books s p d) none

theorem violation_keepsPlaces (s : State) (p : PortId) (kind : Violation) : KeepsPlaces s (s.violation p kind) :=
  enterReinit_keepsPlaces { s with linkBank := recordLink s.linkBank p kind } p .training

theorem receiveReady_keepsPlaces (s : State) (p : PortId) (n : Nat) : KeepsPlaces s (s.receiveReady p n) := by
  unfold State.receiveReady
  dsimp only
  split
  · split
    · exact keepsPlaces_of_books (enterUp_books (s.setPort p _) p)
    · exact .refl s
  · exact violation_keepsPlaces s p _

theorem receiveCredit_keepsPlaces (s : State) (p : PortId) (n : Nat) : KeepsPlaces s (s.receiveCredit p n) := by
  unfold State.receiveCredit
  dsimp only
  split
  · exact violation_keepsPlaces s p _
  split
  · exact .refl s
  · exact violation_keepsPlaces s p _

theorem receiveReinit_keepsPlaces (s : State) (p : PortId) : KeepsPlaces s (s.receiveReinit p) := by
  unfold State.receiveReinit
  dsimp only
  split
  · exact enterReinit_keepsPlaces s p _
  · exact .refl s

theorem receiveAgent_keepsPlaces (s : State) (p : PortId) (m : InMsg) : KeepsPlaces s (s.receiveAgent p m) := by
  unfold State.receiveAgent
  dsimp only
  split
  · split
    · exact violation_keepsPlaces s p _
    · exact .refl s
  · exact violation_keepsPlaces s p _

theorem receive_keepsPlaces (s : State) (p : PortId) (f : Frame) : KeepsPlaces s (s.receive p f) := by
  unfold State.receive
  split
  · split
    · exact violation_keepsPlaces s p _
    · exact receiveReady_keepsPlaces s p _
    · exact receiveCredit_keepsPlaces s p _
    · exact receiveReinit_keepsPlaces s p
    · exact receiveAgent_keepsPlaces s p _
  · exact .refl s

theorem takeHello_keepsPlaces (s : State) (p : PortId) (a : AgentId) : KeepsPlaces s (s.takeHello p a) := by
  have htold : ∀ (r : Agent) (m : OutMsg), KeepsPlaces s ((s.setAgent a r).place p m) :=
    fun r m => keepsPlaces_of_books (place_books (s.setAgent a r) p m)
  unfold State.takeHello
  dsimp only
  split
  · exact htold _ _
  split
  · exact htold _ _
  split
  · exact keepsPlaces_of_books (place_books s p _)
  split
  · exact keepsPlaces_of_finish (purgeStart_books s a .active) (some a)
  split
  · exact htold _ _
  split
  · exact htold _ _
  split
  · exact .refl s
  · exact .refl s

theorem takeGoodbye_keepsPlaces (s : State) (p : PortId) (a : AgentId) : KeepsPlaces s (s.takeGoodbye p a) := by
  unfold State.takeGoodbye
  split
  · exact keepsPlaces_of_finish (depart_books s a) none
  · exact .refl s

theorem takeRelease_keepsPlaces (s : State) (p : PortId) (a : AgentId) (w : WindowId) (version : Half) :
    KeepsPlaces s (s.takeRelease p a w version) := by
  have hdrop := dropHolder_books s w a
  unfold State.takeRelease
  dsimp only
  split
  · split
    · exact keepsPlaces_of_finish ((dropPending_books _ _ a).trans hdrop) none
    · exact keepsPlaces_of_finish hdrop none
  · exact .refl s

theorem takeAck_keepsPlaces (s : State) (p : PortId) (a : AgentId) (serial : Half) :
    KeepsPlaces s (s.takeAck p a serial) := by
  unfold State.takeAck
  split
  · exact keepsPlaces_of_finish (dropAnswer_books s _ a) none
  · exact .refl s

theorem timeOut_keepsPlaces (s : State) (k : SlotId) : KeepsPlaces s (s.timeOut k) :=
  keepsPlaces_of_finish ((foldl_keeps State.books _ fence_books _ _).trans (lapse_books s k)) none

theorem takeDue_keepsPlaces (s : State) (k : SlotId) : KeepsPlaces s (s.takeDue k) := by
  unfold State.takeDue
  split
  · exact .refl s
  · exact keepsPlaces_of_books (takeReminder_books s k)
  · exact timeOut_keepsPlaces s k

theorem ticked_keepsPlaces (s : State) : KeepsPlaces s s.ticked := by
  have hcatch : KeepsPlaces s s.catchUp := by
    unfold State.catchUp
    split
    · split
      · exact .refl s
      · exact .refl s
    · exact foldl_keepsPlaces takeDue_keepsPlaces allSlots s
  have hslots := foldl_keeps State.books State.tickSlot tickSlot_books allSlots s.catchUp
  have hwalk : ∀ t : State, t.tickWalk.books = t.books := fun t => by
    unfold State.tickWalk
    split
    · rfl
    · rfl
  exact hcatch.trans (keepsPlaces_of_books (((hwalk _).trans (tickScrubber_books _)).trans hslots))

/-! ## Takes of the command engine (R140) -/

/-- A command taken while a place is left, and completed in its claim. -/
theorem PaysPlace.keepsPlaces {s t : State} (h : PaysPlace s.takeCommand t) (hroom : s.HasReservation) :
    KeepsPlaces s t := fun n hs => h n (takeCommand_places hroom hs)

/-- Steps that leave the books, and the record posted. -/
theorem paysPlace_of_books {s t : State} (h : t.books = s.books) (c : Completion) : PaysPlace s (t.post c) :=
  (keepsPlaces_of_books h).pays (post_pays t c)

theorem refuse_pays (s : State) (r : CmdRecord) (status : Status) : PaysPlace s.takeCommand (s.refuse r status) :=
  post_pays _ _

theorem openContext_pays (s : State) (r : CmdRecord) : PaysPlace s.takeCommand (s.openContext r) := by
  unfold State.openContext
  split
  · exact refuse_pays s r _
  split
  · exact refuse_pays s r _
  split
  · exact refuse_pays s r _
  · exact paysPlace_of_books rfl _

theorem joinContext_pays (s : State) (r : CmdRecord) : PaysPlace s.takeCommand (s.joinContext r) := by
  unfold State.joinContext
  split
  · exact refuse_pays s r _
  split
  · exact refuse_pays s r _
  split
  · exact refuse_pays s r _
  · exact paysPlace_of_books rfl _

theorem addChecked_pays (s : State) (r : CmdRecord) (c : ContextId) (v : NewValues) :
    PaysPlace s.takeCommand (s.addChecked r c v) := by
  unfold State.addChecked
  split
  · exact refuse_pays s r _
  split
  · exact refuse_pays s r _
  split
  · exact refuse_pays s r _
  split
  · exact refuse_pays s r _
  · exact paysPlace_of_books (applyAdd_books s.takeCommand _ c _ v) _

theorem addWindow_pays (s : State) (r : CmdRecord) : PaysPlace s.takeCommand (s.addWindow r) := by
  unfold State.addWindow
  split
  · split
    · exact addChecked_pays s r _ _
    · exact refuse_pays s r _
  · exact refuse_pays s r _

/-- A command that joins the fence wait list leaves its reservation with its entry (R139, R151). -/
theorem fenceWait_pays (s : State) (f : FenceWait) : PaysPlace s { s with fenceWait := s.fenceWait ++ [f] } :=
  fun n h => by
  obtain ⟨hreserved, hwithin, hwait⟩ := h
  refine ⟨?_, hwithin, hwait⟩
  show s.reservations = s.activeSlots + (s.fenceWait ++ [f]).length + n
  rw [List.length_append, List.length_singleton]
  omega

theorem fenceAgent_pays (s : State) (r : CmdRecord) : PaysPlace s.takeCommand (s.fenceAgent r) := by
  unfold State.fenceAgent
  split
  · exact refuse_pays s r _
  · next a _ =>
    dsimp only
    split
    · exact paysPlace_of_books (fence_books s.takeCommand a) _
    · exact (fenceWait_pays s.takeCommand ⟨recordTag r, a⟩).keeps (keepsPlaces_of_finish (fence_books _ a) none)

theorem unfenceAgent_pays (s : State) (r : CmdRecord) : PaysPlace s.takeCommand (s.unfenceAgent r) := by
  have hset : ∀ a r', (s.takeCommand.setAgent a r').books = s.takeCommand.books := fun _ _ => rfl
  unfold State.unfenceAgent
  split
  · exact refuse_pays s r _
  split
  · dsimp only
    split
    · exact paysPlace_of_books ((place_books _ _ _).trans (hset _ _)) _
    · exact paysPlace_of_books (hset _ _) _
  · exact refuse_pays s r _

theorem queryWindow_pays (s : State) (r : CmdRecord) : PaysPlace s.takeCommand (s.queryWindow r) := by
  unfold State.queryWindow
  split
  · exact refuse_pays s r _
  · exact paysPlace_of_books (books_of_ledger (readGrant_engine _ .query _) (readGrant_ledger _ .query _)) _

theorem queryAgent_pays (s : State) (r : CmdRecord) : PaysPlace s.takeCommand (s.queryAgent r) := by
  unfold State.queryAgent
  split
  · exact refuse_pays s r _
  · exact post_pays _ _

theorem queryContext_pays (s : State) (r : CmdRecord) : PaysPlace s.takeCommand (s.queryContext r) := by
  unfold State.queryContext
  split
  · exact refuse_pays s r _
  · exact post_pays _ _

theorem enablePort_pays (s : State) (r : CmdRecord) : PaysPlace s.takeCommand (s.enablePort r) := by
  unfold State.enablePort
  split
  · exact refuse_pays s r _
  split
  · exact paysPlace_of_books rfl _
  · exact refuse_pays s r _

theorem disablePort_pays (s : State) (r : CmdRecord) : PaysPlace s.takeCommand (s.disablePort r) := by
  unfold State.disablePort
  split
  · exact refuse_pays s r _
  · refine KeepsPlaces.pays ?_ (post_pays _ _)
    unfold State.disableLink
    split
    · exact enterReinit_keepsPlaces _ _ .disabled
    · exact enterReinit_keepsPlaces _ _ .disabled
    · exact keepsPlaces_of_books rfl
    · exact .refl _

theorem resetPort_pays (s : State) (r : CmdRecord) : PaysPlace s.takeCommand (s.resetPort r) := by
  unfold State.resetPort
  split
  · exact refuse_pays s r _
  split
  · exact (enterReinit_keepsPlaces _ _ .training).pays (post_pays _ _)
  · exact refuse_pays s r _

/-! ## Registers and resets -/

/-- A completion popped gives its place back (R131). -/
theorem popCompletion_keepsPlaces (s : State) : KeepsPlaces s s.popCompletion := fun n h => by
  unfold State.popCompletion
  split
  · exact h
  · next c rest hc =>
    obtain ⟨hreserved, hwithin, hwait⟩ := h
    rw [hc, List.length_cons] at hwithin hwait
    refine ⟨hreserved, ?_, fun hw => ?_⟩
    · show rest.length + s.reservations ≤ 16
      omega
    · show rest.length + s.reservations < 16
      have := hwait hw
      omega

/-- A soft reset leaves no command under way and no completion (R138, R139). -/
theorem softReset_places (s : State) : PlacesKept 0 s.softReset := by
  have hports : ∀ t : State, (allPorts.foldl State.softResetPort t).books = t.books :=
    foldl_keeps State.books State.softResetPort (fun t p => by
      unfold State.softResetPort
      split
      · rfl
      · rfl) allPorts
  have hbegin : ∀ t : State, t.beginWalk.books = t.books := fun _ => rfl
  unfold State.softReset
  exact placesKept_of_books ((hbegin _).trans (hports _)) reset_reservationsKept

theorem stage_books (s : State) (value : Word) : (s.stage value).books = s.books := by
  unfold State.stage
  split
  · rfl
  · rfl

theorem postCommand_keepsPlaces (s : State) : KeepsPlaces s s.postCommand := by
  unfold State.postCommand
  split
  · exact .refl s
  · exact .refl s

theorem writeRegister_places {s : State} (h : PlacesKept 0 s) (offset : BitVec 8) (value : Word) :
    PlacesKept 0 (s.writeRegister offset value) := by
  unfold State.writeRegister
  split
  · split
    · exact softReset_places s
    · exact h
  · exact h
  · exact h
  · exact placesKept_of_books (stage_books s value) h
  · exact postCommand_keepsPlaces s 0 h
  · exact popCompletion_keepsPlaces s 0 h
  · exact h
  · exact h
  · exact h
  · exact h

/-! ## Every command -/

theorem whenReleased_keepsPlaces {s : State} {f : State → State} (h : KeepsPlaces s (f s)) :
    KeepsPlaces s (s.whenReleased f) := whenReleased_keeps (P := KeepsPlaces s) (fun _ => h) (.refl s)

theorem whenServing_keepsPlaces {s : State} {f : State → State} (h : KeepsPlaces s (f s)) :
    KeepsPlaces s (s.whenServing f) := whenServing_keeps (P := KeepsPlaces s) (fun _ => h) (.refl s)

theorem headFor_hasReservation {s : State} {kind : Option CommandKind} {r : CmdRecord}
    (h : s.headFor kind = some r) : s.HasReservation := by
  unfold State.headFor at h
  split at h
  · split at h
    · next htaken => exact htaken.2.1
    · cases h
  · cases h

/-- A take is made while a place is left (R140). -/
theorem takeHead_keepsPlaces {s : State} (kind : Option CommandKind) {f : CmdRecord → State → State}
    (h : ∀ r, s.HasReservation → KeepsPlaces s (f r s)) : KeepsPlaces s (s.takeHead kind f) := by
  refine whenServing_keepsPlaces ?_
  split
  · next r hr => exact h r (headFor_hasReservation hr)
  · exact .refl s

theorem takeHead_pays {s : State} (kind : Option CommandKind) {f : CmdRecord → State → State}
    (h : ∀ r, PaysPlace s.takeCommand (f r s)) : KeepsPlaces s (s.takeHead kind f) :=
  takeHead_keepsPlaces kind fun r hroom => (h r).keepsPlaces hroom

section
variable (s : State)

theorem execHello_places (p : PortId) : AnswersBy KeepsPlaces s (execHello p s) := by
  refine ⟨_, rfl, whenServing_keepsPlaces ?_⟩
  split
  · split
    · exact takeHello_keepsPlaces (s.takeInbound p) p _
    · exact .refl s
  · exact .refl s

theorem execGoodbye_places (p : PortId) : AnswersBy KeepsPlaces s (execGoodbye p s) := by
  refine ⟨_, rfl, whenServing_keepsPlaces ?_⟩
  split
  · exact takeGoodbye_keepsPlaces (s.takeInbound p) p _
  · exact .refl s

theorem execRelease_places (p : PortId) : AnswersBy KeepsPlaces s (execRelease p s) := by
  refine ⟨_, rfl, whenServing_keepsPlaces ?_⟩
  split
  · exact takeRelease_keepsPlaces (s.takeInbound p) p _ _ _
  · exact .refl s

theorem execRecallAck_places (p : PortId) : AnswersBy KeepsPlaces s (execRecallAck p s) := by
  refine ⟨_, rfl, whenServing_keepsPlaces ?_⟩
  split
  · exact takeAck_keepsPlaces (s.takeInbound p) p _ _
  · exact .refl s

theorem execLookup_places : AnswersBy KeepsPlaces s (execLookup s) := by
  refine ⟨_, rfl, whenServing_keepsPlaces ?_⟩
  split
  · split
    · exact keepsPlaces_of_books (books_of_ledger (serve_engine s _ _) (serve_ledger s _ _))
    · exact .refl s
  · exact .refl s

theorem execReplay_places : AnswersBy KeepsPlaces s (execReplay s) := by
  refine ⟨_, rfl, whenServing_keepsPlaces ?_⟩
  split
  · exact keepsPlaces_of_books (books_of_ledger (serveReplay_engine s _) (serveReplay_ledger s _))
  · exact .refl s

theorem execReadyDeparture_places (p : PortId) : AnswersBy KeepsPlaces s (execReadyDeparture p s) := by
  refine ⟨_, rfl, whenServing_keepsPlaces ?_⟩
  dsimp only
  split
  · split
    · exact keepsPlaces_of_books (enterUp_books (s.setLane p readyFrame) p)
    · exact .refl s
  · exact .refl s

theorem execReinitDeparture_places (p : PortId) : AnswersBy KeepsPlaces s (execReinitDeparture p s) := by
  refine ⟨_, rfl, whenReleased_keepsPlaces ?_⟩
  dsimp only
  split
  · split
    · exact .refl s
    · exact .refl s
  · exact .refl s

theorem execCreditDeparture_places (p : PortId) : AnswersBy KeepsPlaces s (execCreditDeparture p s) := by
  refine ⟨_, rfl, whenReleased_keepsPlaces ?_⟩
  dsimp only
  split
  · exact .refl s
  · exact .refl s

theorem execOutboundDeparture_places (p : PortId) : AnswersBy KeepsPlaces s (execOutboundDeparture p s) := by
  refine ⟨_, rfl, whenReleased_keepsPlaces ?_⟩
  dsimp only
  split
  · exact .refl s
  · split
    · exact .refl s
    · exact .refl s

theorem execRefill_places (p : PortId) : AnswersBy KeepsPlaces s (execRefill p s) := by
  have howed := foldl_keeps State.books (fun t a => t.refillOwed p a)
    (fun t a => books_of_ledger (refillOwed_engine t p a) (refillOwed_ledger t p a)) allAgents s
  have hslots := foldl_keeps State.books (fun t k => t.refillSlot p k) (fun t k => refillSlot_books t p k) allSlots
  exact ⟨_, rfl, whenServing_keepsPlaces (keepsPlaces_of_books ((hslots _).trans howed))⟩

theorem execRecallReminder_places (k : SlotId) : AnswersBy KeepsPlaces s (execRecallReminder k s) := by
  refine ⟨_, rfl, whenServing_keepsPlaces ?_⟩
  split
  · exact keepsPlaces_of_books (takeReminder_books s k)
  · exact .refl s

theorem execRecallTimeout_places (k : SlotId) : AnswersBy KeepsPlaces s (execRecallTimeout k s) := by
  refine ⟨_, rfl, whenServing_keepsPlaces ?_⟩
  split
  · exact timeOut_keepsPlaces s k
  · exact .refl s

theorem execScrubRead_places : AnswersBy KeepsPlaces s (execScrubRead s) := by
  refine ⟨_, rfl, whenServing_keepsPlaces ?_⟩
  split
  · exact keepsPlaces_of_books (books_of_ledger (scrub_engine s) (readGrant_ledger s .scrub s.scrubPosition))
  · exact .refl s

theorem execPurgeVisit_places : AnswersBy KeepsPlaces s (execPurgeVisit s) := by
  have hvisited : s.visited.books = s.books := by
    rw [visited_only]
    rfl
  refine ⟨_, rfl, whenServing_keepsPlaces ?_⟩
  dsimp only
  split
  · exact .refl s
  · exact keepsPlaces_of_finish hvisited none

/-- A command other than the resets, each of which empties the completion queue, keeps the places. -/
theorem exec_keepsPlaces (c : Instr) (hrelease : c ≠ .resetNRelease) (hreset : ∀ value, c ≠ .softReset value)
    (hwrite : ∀ offset value, c ≠ .registerWriteIgnored offset value) : AnswersBy KeepsPlaces s (exec c s) := by
  have hcarry : ∀ (j : CmdRecord → Judgement) (r : CmdRecord), s.HasReservation →
      KeepsPlaces s (s.carryOut none false r (j r)) := fun j r hroom => carryOut_keepsPlaces hroom none false r (j r)
  cases c with
  | resetNRelease => exact absurd rfl hrelease
  | softReset value => exact absurd rfl (hreset value)
  | registerWriteIgnored offset value => exact absurd rfl (hwrite offset value)
  | resetNAssert => exact ⟨_, rfl, .refl s⟩
  | initWalkEnd =>
    refine ⟨_, rfl, whenReleased_keepsPlaces ?_⟩
    split
    · exact .refl s
    · exact .refl s
  | timebaseTick => exact ⟨_, rfl, whenReleased_keepsPlaces (ticked_keepsPlaces s)⟩
  | storedError w bit => exact ⟨_, rfl, .refl s⟩
  | readyReceived p f => exact ⟨_, rfl, whenReleased_keepsPlaces (receive_keepsPlaces s p f)⟩
  | creditReceived p f => exact ⟨_, rfl, whenReleased_keepsPlaces (receive_keepsPlaces s p f)⟩
  | reinitReceived p f => exact ⟨_, rfl, whenReleased_keepsPlaces (receive_keepsPlaces s p f)⟩
  | agentMessageArrival p f => exact ⟨_, rfl, whenReleased_keepsPlaces (receive_keepsPlaces s p f)⟩
  | hello p => exact execHello_places s p
  | goodbye p => exact execGoodbye_places s p
  | release p => exact execRelease_places s p
  | recallAck p => exact execRecallAck_places s p
  | lookup => exact execLookup_places s
  | replay => exact execReplay_places s
  | readyDeparture p => exact execReadyDeparture_places s p
  | reinitDeparture p => exact execReinitDeparture_places s p
  | creditDeparture p => exact execCreditDeparture_places s p
  | outboundDeparture p => exact execOutboundDeparture_places s p
  | refill p => exact execRefill_places s p
  | recallReminder k => exact execRecallReminder_places s k
  | recallTimeout k => exact execRecallTimeout_places s k
  | scrubRead => exact execScrubRead_places s
  | purgeVisit => exact execPurgeVisit_places s
  | badCommand => exact ⟨_, rfl, takeHead_pays _ fun r => refuse_pays s r _⟩
  | openContext => exact ⟨_, rfl, takeHead_pays _ (openContext_pays s)⟩
  | closeContext => exact ⟨_, rfl, takeHead_keepsPlaces _ (hcarry (judgeClose s))⟩
  | join => exact ⟨_, rfl, takeHead_pays _ (joinContext_pays s)⟩
  | leave => exact ⟨_, rfl, takeHead_keepsPlaces _ (hcarry (judgeLeave s))⟩
  | addWindow => exact ⟨_, rfl, takeHead_pays _ (addWindow_pays s)⟩
  | modifyWindow => exact ⟨_, rfl, takeHead_keepsPlaces _ (hcarry (judgeModify s))⟩
  | retireWindow => exact ⟨_, rfl, takeHead_keepsPlaces _ (hcarry (judgeRetire s))⟩
  | fenceAgent => exact ⟨_, rfl, takeHead_pays _ (fenceAgent_pays s)⟩
  | unfenceAgent => exact ⟨_, rfl, takeHead_pays _ (unfenceAgent_pays s)⟩
  | queryWindow => exact ⟨_, rfl, takeHead_pays _ (queryWindow_pays s)⟩
  | queryAgent => exact ⟨_, rfl, takeHead_pays _ (queryAgent_pays s)⟩
  | queryContext => exact ⟨_, rfl, takeHead_pays _ (queryContext_pays s)⟩
  | portEnable => exact ⟨_, rfl, takeHead_pays _ (enablePort_pays s)⟩
  | portDisable => exact ⟨_, rfl, takeHead_pays _ (disablePort_pays s)⟩
  | portReset => exact ⟨_, rfl, takeHead_pays _ (resetPort_pays s)⟩
  | cmdWordWrite value =>
    exact ⟨_, rfl, whenReleased_keepsPlaces (keepsPlaces_of_books (stage_books s value))⟩
  | cmdPost value => exact ⟨_, rfl, whenReleased_keepsPlaces (postCommand_keepsPlaces s)⟩
  | cplWordRead =>
    refine ⟨_, rfl, ?_⟩
    split
    · exact .refl s
    · unfold State.readCompletion
      split
      · exact .refl s
      · exact .refl s
  | cplPop value => exact ⟨_, rfl, whenReleased_keepsPlaces (popCompletion_keepsPlaces s)⟩
  | attnCauseWrite value => exact ⟨_, rfl, whenReleased_keepsPlaces (.refl s)⟩
  | attnEnableWrite value => exact ⟨_, rfl, whenReleased_keepsPlaces (.refl s)⟩
  | recallLimitWrite value => exact ⟨_, rfl, whenReleased_keepsPlaces (.refl s)⟩
  | scrubIntervalWrite value => exact ⟨_, rfl, whenReleased_keepsPlaces (.refl s)⟩
  | faultClear value => exact ⟨_, rfl, whenReleased_keepsPlaces (.refl s)⟩

theorem exec_places (c : Instr) : AnswersBy (Keeps (PlacesKept 0)) s (exec c s) := by
  by_cases hc : c ≠ .resetNRelease ∧ (∀ value, c ≠ .softReset value) ∧
      ∀ offset value, c ≠ .registerWriteIgnored offset value
  · obtain ⟨hrelease, hreset, hwrite⟩ := hc
    obtain ⟨t, ht, hkeeps⟩ := exec_keepsPlaces s c hrelease hreset hwrite
    exact ⟨t, ht, hkeeps 0⟩
  cases c with
  | resetNRelease =>
    refine ⟨_, rfl, fun h => ?_⟩
    split
    · exact reset_reservationsKept
    · exact h
  | softReset value =>
    refine ⟨_, rfl, whenReleased_keeps fun h => ?_⟩
    split
    · exact softReset_places s
    · exact h
  | registerWriteIgnored offset value =>
    exact ⟨_, rfl, whenReleased_keeps fun h => writeRegister_places h offset value⟩
  | _ => exact absurd ⟨nofun, nofun, nofun⟩ hc

end

/-- Settles O53: a command taken reserves a place, and its reservation passes to a slot, to the fence wait list or to
its completion record; a slot or a wait that ends passes it on to the record. -/
theorem stepKeepsReservations : Obligations.StepKeepsReservations := fun _ _ h hstep =>
  (reservationsKept_iff _).mpr <| step_keeps_of_exec (P := PlacesKept 0) (fun _ _ h => h) (fun c s => exec_places s c)
    ((reservationsKept_iff _).mp h) hstep

end Sys2Proof.Machine
end

section
/-! SUPPORT. The takes of the command engine by the kind of the head record, and the forms that validation refuses
(R140, R142, R143). -/

namespace Sys2Proof.Machine

/-! ## The head taken, by its kind -/

/-- The state after the take of head record `r` of a kind. -/
def State.carriedOut (s : State) (kind : CommandKind) (r : CmdRecord) : State :=
  match kind with
  | .openContext => s.openContext r
  | .closeContext => s.carryOut none false r (judgeClose s r)
  | .join => s.joinContext r
  | .leave => s.carryOut none false r (judgeLeave s r)
  | .addWindow => s.addWindow r
  | .modifyWindow => s.carryOut none false r (judgeModify s r)
  | .retireWindow => s.carryOut none false r (judgeRetire s r)
  | .fenceAgent => s.fenceAgent r
  | .unfenceAgent => s.unfenceAgent r
  | .queryWindow => s.queryWindow r
  | .queryAgent => s.queryAgent r
  | .queryContext => s.queryContext r
  | .portEnable => s.enablePort r
  | .portDisable => s.disablePort r
  | .portReset => s.resetPort r

theorem exec_takeOf (kind : CommandKind) (s : State) :
    exec (takeOf kind) s = .next (s.takeHead (some kind) fun r s => s.carriedOut kind r) := by
  cases kind with
  | _ => rfl

section
variable {s : State} {r : CmdRecord} {rest : List CmdRecord} {kind : CommandKind}

theorem exec_of_carriedOut (h : CanTake s r rest) (hkind : recordKind r = some kind) {t : State}
    (ht : s.carriedOut kind r = t) : exec (takeOf kind) s = .next t := by
  rw [exec_takeOf, takeHead_of_kind h hkind, ht]

/-- A take that refuses its command. -/
theorem exec_of_refuse (h : CanTake s r rest) (hkind : recordKind r = some kind) {status : Status}
    (ht : s.carriedOut kind r = s.refuse r status) :
    exec (takeOf kind) s = .next (s.answered rest r status .refused) :=
  exec_of_carriedOut h hkind (ht.trans (refuse_of_canTake h status))

/-- A change command that validation refuses. -/
theorem carryOut_refused (s : State) (kept : Option AgentId) (late : Bool) (r : CmdRecord) (status : Status) :
    s.carryOut kept late r (.refused status) = s.refuse r status := rfl

/-- The record of a command taken in the same claim goes into its reserved place. -/
theorem post_of_taken (t : State) (rest : List CmdRecord) (r : CmdRecord) (status : Status) (result : Result) :
    State.post { t with cmdQueue := rest, reservations := t.reservations + 1 }
      ⟨recordCode r, status, recordTag r, result⟩ = t.answered rest r status result := rfl

end

/-! ## Operands out of range (R142, R178) -/

section
variable {n : Nat} {r : CmdRecord}

theorem operand2_of_out_of_range (h : n ≤ (bits r.w2 0 16).toNat) : operand2 n r = none :=
  dif_neg (Nat.not_lt.mpr h)

theorem operand2_of_val {i : Fin n} (h : i.val = (bits r.w2 0 16).toNat) : operand2 n r = some i := by
  have hlt : (bits r.w2 0 16).toNat < n := h ▸ i.isLt
  exact (dif_pos hlt).trans (congrArg some (Fin.ext h.symm))

theorem operand3_of_out_of_range (h : n ≤ (bits r.w3 0 16).toNat) : operand3 n r = none :=
  dif_neg (Nat.not_lt.mpr h)

theorem memberOperands_of_some {c : ContextId} {a : AgentId} (hc : operand2 256 r = some c)
    (ha : operand3 32 r = some a) : memberOperands r = some (c, a) := by
  simp only [memberOperands, hc, ha]

theorem memberOperands_of_none (h : operand2 256 r = none ∨ operand3 32 r = none) : memberOperands r = none := by
  unfold memberOperands
  split
  · next hc ha => simp [hc, ha] at h
  · rfl

theorem classOf_three {b : BitVec 2} (h : b = 3) : classOf b = none := by
  subst h
  rfl

/-- The two parts of an ADD_WINDOW's local base. -/
theorem localBaseOperand_toNat (r : CmdRecord) :
    (localBaseOperand r).toNat = (bits r.w4 28 4).toNat * 2 ^ 32 + r.w3.toNat := by
  rw [localBaseOperand, BitVec.toNat_append, ← Nat.shiftLeft_add_eq_or_of_lt r.w3.isLt, Nat.shiftLeft_eq]

/-- Values that validation refuses are out of range themselves, or lie outside the page spaces (R2). -/
theorem not_inBounds_of_valuesFail {base : LocalPage} (h : ValuesFail r base.toNat) {v : NewValues}
    (hv : valueOperands r = some v) : ¬ InBounds base v := by
  unfold valueOperands at hv
  dsimp only at hv
  split at hv
  · next hrange =>
    obtain ⟨hone, hmost, hrights⟩ := hrange
    obtain ⟨cls, hcls, rfl⟩ := Option.map_eq_some_iff.mp hv
    have hglobal : (bits r.w6 0 8 ++ r.w5 : BitVec 40).toNat = (bits r.w6 0 8).toNat * 2 ^ 32 + r.w5.toNat := by
      rw [BitVec.toNat_append, ← Nat.shiftLeft_add_eq_or_of_lt r.w5.isLt, Nat.shiftLeft_eq]
    rintro ⟨hlocal, hpages⟩
    dsimp only at hlocal hpages
    rw [hglobal] at hpages
    rcases h with hlength | hlength | hnone | hclass | hbase | hbase
    · omega
    · omega
    · exact hrights hnone
    · rw [classOf_three hclass] at hcls
      cases hcls
    · omega
    · omega
  · cases hv

end

section
variable {s : State} {r : CmdRecord}

theorem addWindow_of_no_context (h : operand2 256 r = none) : s.addWindow r = s.refuse r .badCommand := by
  simp only [State.addWindow, h]

theorem addWindow_of_bounds {c : ContextId} {v : NewValues} (hc : operand2 256 r = some c)
    (hv : valueOperands r = some v) (h : InBounds (localBaseOperand r) v) :
    s.addWindow r = s.addChecked r c v := by simp only [State.addWindow, hc, hv, if_pos h]

theorem addWindow_of_no_bounds {c : ContextId} {v : NewValues} (hc : operand2 256 r = some c)
    (hv : valueOperands r = some v) (h : ¬ InBounds (localBaseOperand r) v) :
    s.addWindow r = s.refuse r .badCommand := by simp only [State.addWindow, hc, hv, if_neg h]

theorem addWindow_of_valuesFail (h : ValuesFail r (localBaseOperand r).toNat) :
    s.addWindow r = s.refuse r .badCommand := by
  cases hc : operand2 256 r with
  | none => exact addWindow_of_no_context hc
  | some c =>
    cases hv : valueOperands r with
    | none => simp only [State.addWindow, hc, hv]
    | some v => exact addWindow_of_no_bounds hc hv (not_inBounds_of_valuesFail h hv)

theorem judgeModify_of_no_window (h : operand2 4096 r = none) : judgeModify s r = .refused .badCommand := by
  simp only [judgeModify, h]

theorem judgeModify_of_no_bounds {w : WindowId} {v : NewValues} (hw : operand2 4096 r = some w)
    (hv : valueOperands r = some v) (h : ¬ InBounds (s.window w).localBase v) :
    judgeModify s r = .refused .badCommand := by simp only [judgeModify, hw, hv, if_neg h]

theorem judgeModify_of_valuesFail {w : WindowId} (hw : operand2 4096 r = some w)
    (h : ValuesFail r (s.window w).localBase.toNat) : judgeModify s r = .refused .badCommand := by
  cases hv : valueOperands r with
  | none => simp only [judgeModify, hw, hv]
  | some v => exact judgeModify_of_no_bounds hw hv (not_inBounds_of_valuesFail h hv)

/-- Whatever the kind, a record whose form fails is refused with BAD_COMMAND. -/
theorem carriedOut_of_formFails {kind : CommandKind} (h : FormFails s r kind) :
    s.carriedOut kind r = s.refuse r .badCommand := by
  cases kind with
  | openContext => simp only [State.carriedOut, State.openContext, operand2_of_out_of_range h]
  | closeContext => simp only [State.carriedOut, judgeClose, operand2_of_out_of_range h, carryOut_refused]
  | join =>
    have hnone := memberOperands_of_none (h.imp operand2_of_out_of_range operand3_of_out_of_range)
    simp only [State.carriedOut, State.joinContext, hnone]
  | leave =>
    have hnone := memberOperands_of_none (h.imp operand2_of_out_of_range operand3_of_out_of_range)
    simp only [State.carriedOut, judgeLeave, hnone, carryOut_refused]
  | addWindow =>
    rcases h with hoperand | hvalues
    · exact addWindow_of_no_context (operand2_of_out_of_range hoperand)
    · exact addWindow_of_valuesFail (by rwa [localBaseOperand_toNat])
  | modifyWindow =>
    have hjudged : judgeModify s r = .refused .badCommand := by
      rcases h with hoperand | ⟨w, hw, hvalues⟩
      · exact judgeModify_of_no_window (operand2_of_out_of_range hoperand)
      · exact judgeModify_of_valuesFail (operand2_of_val hw) hvalues
    simp only [State.carriedOut, hjudged, carryOut_refused]
  | retireWindow => simp only [State.carriedOut, judgeRetire, operand2_of_out_of_range h, carryOut_refused]
  | fenceAgent => simp only [State.carriedOut, State.fenceAgent, operand2_of_out_of_range h]
  | unfenceAgent => simp only [State.carriedOut, State.unfenceAgent, operand2_of_out_of_range h]
  | queryWindow => simp only [State.carriedOut, State.queryWindow, operand2_of_out_of_range h]
  | queryAgent => simp only [State.carriedOut, State.queryAgent, operand2_of_out_of_range h]
  | queryContext => simp only [State.carriedOut, State.queryContext, operand2_of_out_of_range h]
  | portEnable => simp only [State.carriedOut, State.enablePort, operand2_of_out_of_range h]
  | portDisable => simp only [State.carriedOut, State.disablePort, operand2_of_out_of_range h]
  | portReset => simp only [State.carriedOut, State.resetPort, operand2_of_out_of_range h]

end

end Sys2Proof.Machine
end

section
/-! SUPPORT. OPEN_CONTEXT and JOIN, which are completed in their take (O36). -/

namespace Sys2Proof.Machine

/-! ## OPEN_CONTEXT and JOIN (R144, R146) -/

section
variable {s : State} {r : CmdRecord} {rest : List CmdRecord} {c : ContextId} {a : AgentId}

theorem ne_free_of_opened (h : (s.context c).state = .opened) : (s.context c).state ≠ .free := by
  rw [h]
  decide

theorem ne_closing_of_opened (h : (s.context c).state = .opened) : (s.context c).state ≠ .closing := by
  rw [h]
  decide

theorem ne_free_of_closing (h : (s.context c).state = .closing) : (s.context c).state ≠ .free := by
  rw [h]
  decide

theorem ne_opened_iff : (s.context c).state ≠ .opened ↔
    (s.context c).state = .free ∨ (s.context c).state = .closing := by
  cases (s.context c).state with
  | _ => decide

theorem openContext_of_none (h : operand2 256 r = none) : s.openContext r = s.refuse r .badCommand := by
  simp only [State.openContext, h]

theorem openContext_of_opened (hc : operand2 256 r = some c) (h : (s.context c).state = .opened) :
    s.openContext r = s.refuse r .contextBusy := by simp only [State.openContext, hc, if_pos h]

theorem openContext_of_closing (hc : operand2 256 r = some c) (h : (s.context c).state = .closing) :
    s.openContext r = s.refuse r .contextClosing := by
  have hopened : (s.context c).state ≠ .opened := by
    rw [h]
    decide
  simp only [State.openContext, hc, if_neg hopened, if_pos h]

theorem openContext_of_free (htake : CanTake s r rest) (hc : operand2 256 r = some c)
    (h : (s.context c).state = .free) : s.openContext r =
      ((s.setContext c ⟨.opened, 0, 0, 0, none⟩).setWindowList c []).answered rest r .ok (.context c) := by
  have hopened : (s.context c).state ≠ .opened := by
    rw [h]
    decide
  have hclosing : (s.context c).state ≠ .closing := by
    rw [h]
    decide
  simp only [State.openContext, hc, if_neg hopened, if_neg hclosing, takeCommand_of_canTake htake]
  exact post_of_taken ((s.setContext c ⟨.opened, 0, 0, 0, none⟩).setWindowList c []) rest r .ok (.context c)

theorem joinContext_of_none (h : operand2 256 r = none ∨ operand3 32 r = none) :
    s.joinContext r = s.refuse r .badCommand := by
  simp only [State.joinContext, memberOperands_of_none h]

section
variable (hc : operand2 256 r = some c) (ha : operand3 32 r = some a)
include hc ha

theorem joinContext_of_not_opened (h : (s.context c).state ≠ .opened) :
    s.joinContext r = s.refuse r .noContext := by
  simp only [State.joinContext, memberOperands_of_some hc ha, if_pos (ne_opened_iff.mp h)]

theorem joinContext_of_member (h : (s.context c).state = .opened)
    (hmember : hasAgent (s.context c).members a = true) : s.joinContext r = s.refuse r .alreadyMember := by
  have hopen := mt ne_opened_iff.mpr (not_not_intro h)
  simp only [State.joinContext, memberOperands_of_some hc ha, if_neg hopen, if_pos hmember]

theorem joinContext_of_newcomer (htake : CanTake s r rest) (h : (s.context c).state = .opened)
    (hmember : hasAgent (s.context c).members a = false) : s.joinContext r =
      (s.setContext c { s.context c with members := addAgent (s.context c).members a }).answered rest r .ok
        (.member c a) := by
  have hopen := mt ne_opened_iff.mpr (not_not_intro h)
  simp only [State.joinContext, memberOperands_of_some hc ha, if_neg hopen, hmember, Bool.false_eq_true,
    if_false, takeCommand_of_canTake htake]
  exact post_of_taken (s.setContext c { s.context c with members := addAgent (s.context c).members a }) rest r .ok
    (.member c a)

end
end

/-- Settles O36: each outcome is a branch of the take, and a form that fails is refused before any record is
read but the window's local base. -/
theorem openJoinAndBadForms : Obligations.OpenJoinAndBadForms := by
  intro s r rest h
  refine ⟨fun hnone => ?_, fun kind hkind hform => exec_of_refuse h hkind (carriedOut_of_formFails hform),
    fun c hkind hc => ⟨fun hfree => ?_, fun hopened => ?_, fun hclosing => ?_⟩, fun hkind hnone => ?_,
    fun c a hkind hc ha => ⟨fun hnot => ?_, fun hopened hmember => ?_, fun hopened hmember => ?_⟩,
    fun hkind hnone => ?_⟩
  · show Host.Outcome.next (s.takeHead _ _) = _
    rw [takeHead_of_kind h hnone, refuse_of_canTake h]
  · exact exec_of_carriedOut (kind := .openContext) h hkind (openContext_of_free h hc hfree)
  · exact exec_of_refuse (kind := .openContext) h hkind (openContext_of_opened hc hopened)
  · exact exec_of_refuse (kind := .openContext) h hkind (openContext_of_closing hc hclosing)
  · exact exec_of_refuse (kind := .openContext) h hkind (openContext_of_none hnone)
  · exact exec_of_refuse (kind := .join) h hkind (joinContext_of_not_opened hc ha hnot)
  · exact exec_of_refuse (kind := .join) h hkind (joinContext_of_member hc ha hopened hmember)
  · exact exec_of_carriedOut (kind := .join) h hkind (joinContext_of_newcomer hc ha h hopened hmember)
  · exact exec_of_refuse (kind := .join) h hkind (joinContext_of_none hnone)

end Sys2Proof.Machine
end

section
/-! SUPPORT. UNFENCE_AGENT by the agent's state and its port (O43), and what the three queries report (O44). -/

namespace Sys2Proof.Machine

/-! ## UNFENCE_AGENT (R153, R39) -/

section
variable {s : State} {r : CmdRecord} {rest : List CmdRecord} {a : AgentId} {p : PortId}

theorem unfencePort_of_room (hport : (s.agent a).port = some p) (hroom : s.HasRoom p) :
    s.unfencePort a = some p := roomFor_eq_some_iff.mpr ⟨hport, hroom⟩

theorem unfencePort_of_no_room (hport : (s.agent a).port = some p) (hroom : ¬ s.HasRoom p) :
    s.unfencePort a = none := by
  refine Option.eq_none_iff_forall_ne_some.mpr fun q hq => hroom ?_
  obtain ⟨hown, hfree⟩ := roomFor_hasRoom hq
  rwa [Option.some.inj (hport.symm.trans hown)]

theorem unfencePort_of_no_port (hport : (s.agent a).port = none) : s.unfencePort a = none := by
  refine Option.eq_none_iff_forall_ne_some.mpr fun q hq => ?_
  cases hport.symm.trans (roomFor_hasRoom hq).1

/-- The agent record that an UNFENCE_AGENT leaves (R39). -/
def State.unfenced (s : State) (a : AgentId) : State :=
  s.setAgent a { s.agent a with state := .absent, port := none, fenceOwed := false }

section
variable (ha : operand2 32 r = some a)
include ha

theorem unfenceAgent_of_other (h : (s.agent a).state ≠ .fenced) : s.unfenceAgent r = s.refuse r .agentState := by
  simp only [State.unfenceAgent, ha, if_neg h]

variable (htake : CanTake s r rest) (hfenced : (s.agent a).state = .fenced)
include htake hfenced

theorem unfenceAgent_of_room (hport : (s.agent a).port = some p) (hroom : s.HasRoom p) :
    s.unfenceAgent r = ((s.unfenced a).sent p (.unfence a)).answered rest r .ok (.unfenced a (some p) true) := by
  have hplaced := setAgent_place (s := { s with cmdQueue := rest, reservations := s.reservations + 1 }) hroom a
    { s.agent a with state := .absent, port := none, fenceOwed := false } (.unfence a)
  simp only [State.unfenceAgent, ha, if_pos hfenced, unfencePort_of_room hport hroom, hport,
    takeCommand_of_canTake htake]
  rw [hplaced]
  exact post_of_taken ((s.unfenced a).sent p (.unfence a)) rest r .ok (.unfenced a (some p) true)

/-- With no place for the UNFENCE the record is cleared alone. -/
theorem unfenceAgent_of_no_place (hplace : s.unfencePort a = none) :
    s.unfenceAgent r = (s.unfenced a).answered rest r .ok (.unfenced a (s.agent a).port false) := by
  simp only [State.unfenceAgent, ha, if_pos hfenced, hplace, takeCommand_of_canTake htake]
  exact post_of_taken (s.unfenced a) rest r .ok (.unfenced a (s.agent a).port false)

end
end

/-- Settles O43: by the agent's state, and for a FENCED agent by the port it is read with. -/
theorem unfenceAgentByState : Obligations.UnfenceAgentByState := by
  intro s r rest a h hkind ha
  refine ⟨fun hother => ?_, fun p hfenced hport hroom => ?_, fun p hfenced hport hroom => ?_,
    fun hfenced hport => ?_⟩
  · exact exec_of_refuse (kind := .unfenceAgent) h hkind (unfenceAgent_of_other ha hother)
  · exact exec_of_carriedOut (kind := .unfenceAgent) h hkind (unfenceAgent_of_room ha h hfenced hport hroom)
  · have hcleared := unfenceAgent_of_no_place ha h hfenced (unfencePort_of_no_room hport hroom)
    rw [hport] at hcleared
    exact exec_of_carriedOut (kind := .unfenceAgent) h hkind hcleared
  · have hcleared := unfenceAgent_of_no_place ha h hfenced (unfencePort_of_no_port hport)
    rw [hport] at hcleared
    exact exec_of_carriedOut (kind := .unfenceAgent) h hkind hcleared

/-! ## The queries (R154 to R156) -/

theorem reportedKey_of_free {x : Window} (h : x.state = .free) :
    reportedKey x = { Window.initial with version := x.version } := if_pos h

theorem reportedKey_of_used {x : Window} (h : x.state ≠ .free) : reportedKey x = x := if_neg h

/-- A double error that a read finds in a window in use: the window poisoned, and the error recorded (R164). -/
def State.misread (s : State) (detector : Detector) (w : WindowId) : State :=
  { s.setWindow w { s.window w with poisoned := true } with
    storageBank := recordStorage s.storageBank .uncorrected w detector false }

/-- A double error that a read finds in a FREE record: the grant part zeroed, and the error recorded (R164). -/
def State.rezeroed (s : State) (detector : Detector) (w : WindowId) : State :=
  { s.setWord w ⟨GrantPart.zero, []⟩ with
    storageBank := recordStorage s.storageBank .uncorrected w detector true }

section
variable {s : State} {w : WindowId} (detector : Detector)

theorem storageFault_eq {free : Bool} (hfree : decide ((s.window w).state = .free) = free) (severity : Severity) :
    s.storageFault severity w detector =
      { s with storageBank := recordStorage s.storageBank severity w detector free } := by
  rw [State.storageFault, hfree]

theorem readGrant_of_double_used {b c : CodeBit} (h : Readable s w [b, c]) (hused : (s.window w).state ≠ .free) :
    s.readGrant detector w = (s.misread detector w, none) := by
  rw [readGrant_of_double _ h, spoil_of_used (s := s.storageFault _ w _) hused,
    storageFault_eq detector (decide_eq_false hused)]
  rfl

theorem readGrant_of_double_free {b c : CodeBit} (h : Readable s w [b, c]) (hfree : (s.window w).state = .free) :
    s.readGrant detector w = (s.rezeroed detector w, none) := by
  have hspoil : (s.storageFault .uncorrected w detector).spoil w =
      (s.storageFault .uncorrected w detector).writeGrant w GrantPart.zero := if_pos hfree
  rw [readGrant_of_double _ h, hspoil, storageFault_eq detector (decide_eq_true hfree)]
  rfl

theorem misread_window (s : State) (w : WindowId) :
    (s.misread detector w).window w = { s.window w with poisoned := true } := by
  show (s.setWindow w _).window w = _
  rw [State.setWindow_window, if_pos rfl]

theorem rezeroed_window (s : State) (w v : WindowId) : (s.rezeroed detector w).window v = s.window v := rfl

end

section
variable {s : State} {r : CmdRecord} {rest : List CmdRecord}

theorem queryAgent_of_taken {a : AgentId} (htake : CanTake s r rest) (ha : operand2 32 r = some a) :
    s.queryAgent r = s.answered rest r .ok (.agent a (s.agent a)) := by
  simp only [State.queryAgent, ha]
  exact takeCommand_post htake _ _

theorem queryContext_of_taken {c : ContextId} (htake : CanTake s r rest) (hc : operand2 256 r = some c) :
    s.queryContext r = s.answered rest r .ok (.contextRecord c (s.context c)) := by
  simp only [State.queryContext, hc]
  exact takeCommand_post htake _ _

variable {w : WindowId} (htake : CanTake s r rest) (hw : operand2 4096 r = some w)
include htake hw

/-- A query reports what the read of its claim hands and leaves: the read does not see the command taken. -/
theorem queryWindow_of_read {t : State} {g : Option GrantPart}
    (hread : State.readGrant { s with cmdQueue := rest, reservations := s.reservations + 1 } .query w =
      ({ t with cmdQueue := rest, reservations := t.reservations + 1 }, g)) :
    s.queryWindow r = t.answered rest r .ok (.window w (reportedKey (t.window w)) (g.getD GrantPart.zero)) := by
  simp only [State.queryWindow, hw, takeCommand_of_canTake htake, hread]
  exact post_of_taken t rest r .ok (.window w (reportedKey (t.window w)) (g.getD GrantPart.zero))

theorem queryWindow_of_clean (h : Readable s w []) : s.queryWindow r =
    s.answered rest r .ok (.window w (reportedKey (s.window w)) (s.word w).written) :=
  queryWindow_of_read (t := s) (g := some (s.word w).written) htake hw (readGrant_of_clean .query h)

theorem queryWindow_of_single {b : CodeBit} (h : Readable s w [b]) : s.queryWindow r =
    State.answered { s.setWord w ⟨(s.word w).written, []⟩ with
        storageBank := recordStorage s.storageBank .corrected w .query (decide ((s.window w).state = .free)) }
      rest r .ok (.window w (reportedKey (s.window w)) (s.word w).written) :=
  queryWindow_of_read (g := some (s.word w).written) (t := { s.setWord w ⟨(s.word w).written, []⟩ with
      storageBank := recordStorage s.storageBank .corrected w .query (decide ((s.window w).state = .free)) })
    htake hw (readGrant_of_single .query h)

theorem queryWindow_of_poisoned (hused : (s.window w).state ≠ .free) (hpoisoned : (s.window w).poisoned = true) :
    s.queryWindow r = s.answered rest r .ok (.window w (s.window w) GrantPart.zero) := by
  have hquery := queryWindow_of_read (t := s) htake hw
    (readGrant_of_poisoned (s := { s with cmdQueue := rest, reservations := s.reservations + 1 }) .query hused
      hpoisoned)
  rwa [reportedKey_of_used hused] at hquery

theorem queryWindow_of_double_used {b c : CodeBit} (h : Readable s w [b, c]) (hused : (s.window w).state ≠ .free) :
    s.queryWindow r = (s.misread .query w).answered rest r .ok
      (.window w { s.window w with poisoned := true } GrantPart.zero) := by
  have hquery := queryWindow_of_read (t := s.misread .query w) htake hw
    (readGrant_of_double_used (s := { s with cmdQueue := rest, reservations := s.reservations + 1 }) .query h hused)
  rwa [misread_window, reportedKey_of_used (x := { s.window w with poisoned := true }) hused] at hquery

theorem queryWindow_of_double_free {b c : CodeBit} (h : Readable s w [b, c]) (hfree : (s.window w).state = .free) :
    s.queryWindow r = (s.rezeroed .query w).answered rest r .ok
      (.window w { Window.initial with version := (s.window w).version } GrantPart.zero) := by
  have hquery := queryWindow_of_read (t := s.rezeroed .query w) htake hw
    (readGrant_of_double_free (s := { s with cmdQueue := rest, reservations := s.reservations + 1 }) .query h hfree)
  rwa [rezeroed_window, reportedKey_of_free hfree] at hquery

end

/-- Settles O44: a query posts what it reads, and a read leaves what R164 says of the error it finds. -/
theorem queriesReportTheRecords : Obligations.QueriesReportTheRecords := by
  refine ⟨fun x => ⟨reportedKey_of_used, reportedKey_of_free⟩, fun s r rest h =>
    ⟨fun a hkind ha => ?_, fun c hkind hc => ?_, fun w hkind hw => ⟨fun hread => ?_, fun b hread => ?_,
      fun hused hpoisoned => ?_, fun b c hread hused => ?_, fun b c hread hfree => ?_⟩⟩⟩
  · exact exec_of_carriedOut (kind := .queryAgent) h hkind (queryAgent_of_taken h ha)
  · exact exec_of_carriedOut (kind := .queryContext) h hkind (queryContext_of_taken h hc)
  · exact exec_of_carriedOut (kind := .queryWindow) h hkind (queryWindow_of_clean h hw hread)
  · exact exec_of_carriedOut (kind := .queryWindow) h hkind (queryWindow_of_single h hw hread)
  · exact exec_of_carriedOut (kind := .queryWindow) h hkind (queryWindow_of_poisoned h hw hused hpoisoned)
  · exact exec_of_carriedOut (kind := .queryWindow) h hkind (queryWindow_of_double_used h hw hread hused)
  · exact exec_of_carriedOut (kind := .queryWindow) h hkind (queryWindow_of_double_free h hw hread hfree)

end Sys2Proof.Machine
end

section
/-! SUPPORT. The port commands by the port's state (O45). -/

namespace Sys2Proof.Machine

section
variable {s : State} {r : CmdRecord} {rest : List CmdRecord} {p : PortId}

/-! ## PORT_ENABLE (R157, R112) -/

/-- A port's entry into TRAINING: its destination is kept, and everything else starts anew (R112). -/
def State.trained (s : State) (p : PortId) : State :=
  { s.setPort p ⟨.training, (s.port p).destination, false, false, [], [], 0, 0⟩ with portChange := true }

theorem trained_port (s : State) (p : PortId) :
    (s.trained p).port p = ⟨.training, (s.port p).destination, false, false, [], [], 0, 0⟩ :=
  (State.setPort_port s p p ⟨.training, (s.port p).destination, false, false, [], [], 0, 0⟩).trans (if_pos rfl)

/-- A port command's record reports the port's state as the claim leaves it. -/
theorem postPort_eq {t : State} {state : PortState} (h : (t.port p).state = state) :
    t.postPort r p = t.post ⟨recordCode r, .ok, recordTag r, .port p state⟩ := by
  rw [State.postPort, h]
  rfl

/-- The record of a port command that leaves `t`, when the claim's own take is in `t` already. -/
theorem postPort_of_taken {t : State} {state : PortState} (h : (t.port p).state = state) :
    State.postPort { t with cmdQueue := rest, reservations := t.reservations + 1 } r p =
      t.answered rest r .ok (.port p state) := by
  rw [postPort_eq (t := { t with cmdQueue := rest, reservations := t.reservations + 1 }) h]
  exact post_of_taken t rest r .ok (.port p state)

section
variable (hp : operand2 4 r = some p)
include hp

theorem enablePort_of_disabled (htake : CanTake s r rest) (h : (s.port p).state = .disabled) :
    s.enablePort r = (s.trained p).answered rest r .ok (.port p .training) := by
  have hstate : ((s.trained p).port p).state = .training := by rw [trained_port]
  simp only [State.enablePort, hp, if_pos h, takeCommand_of_canTake htake]
  exact postPort_of_taken hstate

theorem enablePort_of_busy (h : (s.port p).state ≠ .disabled) : s.enablePort r = s.refuse r .portBusy := by
  simp only [State.enablePort, hp, if_neg h]

/-! ## PORT_RESET and PORT_DISABLE (R158, R159, R114) -/

theorem resetPort_of_up (htake : CanTake s r rest) (h : (s.port p).state = .up) :
    s.resetPort r = (State.enterReinit { s with cmdQueue := rest, reservations := s.reservations + 1 } p
      .training).post ⟨recordCode r, .ok, recordTag r, .port p .reinit⟩ := by
  simp only [State.resetPort, hp, if_pos h, takeCommand_of_canTake htake]
  exact postPort_eq (congrArg Port.state (enterReinit_port _ p .training))

theorem resetPort_of_busy (h : (s.port p).state ≠ .up) : s.resetPort r = s.refuse r .portBusy := by
  simp only [State.resetPort, hp, if_neg h]

variable (htake : CanTake s r rest)
include htake

theorem disablePort_eq : s.disablePort r =
    (State.disableLink { s with cmdQueue := rest, reservations := s.reservations + 1 } p).postPort r p := by
  simp only [State.disablePort, hp, takeCommand_of_canTake htake]

end

theorem disableLink_of_disabled (h : (s.port p).state = .disabled) : s.disableLink p = s := by
  rw [State.disableLink, h]

theorem disableLink_of_reinit (h : (s.port p).state = .reinit) :
    s.disableLink p = s.setPort p { s.port p with destination := .disabled } := by
  rw [State.disableLink, h]

theorem disableLink_of_link (h : (s.port p).state = .training ∨ (s.port p).state = .up) :
    s.disableLink p = s.enterReinit p .disabled := by
  rcases h with htraining | hup
  · rw [State.disableLink, htraining]
  · rw [State.disableLink, hup]

section
variable (hp : operand2 4 r = some p) (htake : CanTake s r rest)
include hp htake

theorem disablePort_of_disabled (h : (s.port p).state = .disabled) :
    s.disablePort r = s.answered rest r .ok (.port p .disabled) := by
  rw [disablePort_eq hp htake,
    disableLink_of_disabled (s := { s with cmdQueue := rest, reservations := s.reservations + 1 }) h]
  exact postPort_of_taken h

theorem disablePort_of_reinit (h : (s.port p).state = .reinit) : s.disablePort r =
    (s.setPort p { s.port p with destination := .disabled }).answered rest r .ok (.port p .reinit) := by
  have hstate : ((s.setPort p { s.port p with destination := .disabled }).port p).state = .reinit := by
    rw [State.setPort_port, if_pos rfl, h]
  rw [disablePort_eq hp htake,
    disableLink_of_reinit (s := { s with cmdQueue := rest, reservations := s.reservations + 1 }) h]
  exact postPort_of_taken hstate

theorem disablePort_of_link (h : (s.port p).state = .training ∨ (s.port p).state = .up) :
    s.disablePort r = (State.enterReinit { s with cmdQueue := rest, reservations := s.reservations + 1 } p
      .disabled).post ⟨recordCode r, .ok, recordTag r, .port p .reinit⟩ := by
  rw [disablePort_eq hp htake,
    disableLink_of_link (s := { s with cmdQueue := rest, reservations := s.reservations + 1 }) h]
  exact postPort_eq (congrArg Port.state (enterReinit_port _ p .disabled))

end

theorem post_port (s : State) (x : Completion) (p : PortId) : (s.post x).port p = s.port p := rfl

theorem post_portChange (s : State) (x : Completion) : (s.post x).portChange = s.portChange := rfl

theorem post_linkBank (s : State) (x : Completion) : (s.post x).linkBank = s.linkBank := rfl

theorem post_getLast (s : State) (x : Completion) : (s.post x).completions.getLast? = some x :=
  List.getLast?_concat

/-- What a port command leaves that takes its port into REINIT: the port's record, the flags, and its own
record behind every other of the claim. -/
theorem enterReinit_posted (s : State) (p : PortId) (d : Destination) (x : Completion) :
    ((s.enterReinit p d).post x).port p = reinitRecord d ∧ ((s.enterReinit p d).post x).portChange = true ∧
      ((s.enterReinit p d).post x).linkBank = s.linkBank ∧
      ((s.enterReinit p d).post x).completions.getLast? = some x := by
  obtain ⟨hchange, hbank⟩ := enterReinit_flags s p d
  rw [post_port, post_portChange, post_linkBank, post_getLast]
  exact ⟨enterReinit_port s p d, hchange, hbank, rfl⟩

end

/-- Settles O45: by the port's state; a port that enters REINIT holds the record of R113, and
the command's record is the last posted. -/
theorem portCommandsByState : Obligations.PortCommandsByState := by
  intro s r rest p h hp
  refine ⟨fun hkind hdisabled => ?_, fun hkind hbusy => ?_, fun hkind hbusy => ?_, fun hkind hup => ?_,
    fun hkind hdisabled => ?_, fun hkind hreinit => ?_, fun hkind hlink => ?_⟩
  · exact exec_of_carriedOut (kind := .portEnable) h hkind (enablePort_of_disabled hp h hdisabled)
  · exact exec_of_refuse (kind := .portEnable) h hkind (enablePort_of_busy hp hbusy)
  · exact exec_of_refuse (kind := .portReset) h hkind (resetPort_of_busy hp hbusy)
  · exact ⟨_, exec_of_carriedOut (kind := .portReset) h hkind (resetPort_of_up hp h hup), rfl,
      enterReinit_posted _ p .training _⟩
  · exact exec_of_carriedOut (kind := .portDisable) h hkind (disablePort_of_disabled hp h hdisabled)
  · exact exec_of_carriedOut (kind := .portDisable) h hkind (disablePort_of_reinit hp h hreinit)
  · exact ⟨_, exec_of_carriedOut (kind := .portDisable) h hkind (disablePort_of_link hp h hlink), rfl,
      enterReinit_posted _ p .disabled _⟩

end Sys2Proof.Machine
end

section
/-! SUPPORT. ADD_WINDOW: the overlap check, the place of an id in its context's list, and the record made (O38). -/

namespace Sys2Proof.Machine

/-! ## The overlap check (R10) -/

section
variable {s : State} {w : WindowId}

theorem plannedLength_eq_some_iff {n : PageCount} : s.plannedLength w = some n ↔
    ∃ k u, (s.window w).slot = some k ∧ (s.slot k).subject = .modify u ∧ (s.slot k).newValues.length = n := by
  unfold State.plannedLength
  cases hslot : (s.window w).slot with
  | none => simp
  | some k =>
    cases hsubject : (s.slot k).subject with
    | _ => simp [hsubject]

/-- The pages from the local base of `w` on, `n` of them. -/
abbrev State.PagesOf (s : State) (w : WindowId) (n page : Nat) : Prop :=
  (s.window w).localBase.toNat ≤ page ∧ page < (s.window w).localBase.toNat + n

/-- A page of `w`'s current range, or of the range that a MODIFY in flight will give it. -/
def State.ClaimsPage (s : State) (w : WindowId) (page : Nat) : Prop :=
  s.PagesOf w (s.window w).length.toNat page ∨
    ∃ k u, (s.window w).slot = some k ∧ (s.slot k).subject = .modify u ∧
      s.PagesOf w (s.slot k).newValues.length.toNat page

theorem claimsPage_iff {page : Nat} : s.ClaimsPage w page ↔
    s.PagesOf w (s.window w).length.toNat page ∨ ∃ n, s.plannedLength w = some n ∧ s.PagesOf w n.toNat page := by
  refine or_congr_right ⟨fun ⟨k, u, hslot, hsubject, hpage⟩ =>
      ⟨_, plannedLength_eq_some_iff.mpr ⟨k, u, hslot, hsubject, rfl⟩, hpage⟩, fun ⟨n, hplanned, hpage⟩ => ?_⟩
  obtain ⟨k, u, hslot, hsubject, rfl⟩ := plannedLength_eq_some_iff.mp hplanned
  exact ⟨k, u, hslot, hsubject, hpage⟩

theorem meets_iff_rangesMeet {base len : Nat} : s.meets base len w = true ↔
    RangesMeet base len (s.window w).localBase.toNat (s.window w).length.toNat ∨
      ∃ n, s.plannedLength w = some n ∧ RangesMeet base len (s.window w).localBase.toNat n.toNat := by
  unfold State.meets
  cases s.plannedLength w with
  | _ => simp

theorem meets_iff {base len : Nat} : s.meets base len w = true ↔
    ∃ page, (base ≤ page ∧ page < base + len) ∧ s.ClaimsPage w page := by
  simp only [meets_iff_rangesMeet, claimsPage_iff, rangesMeet_iff]
  constructor
  · rintro (⟨page, hin, hpage⟩ | ⟨n, hplanned, page, hin, hpage⟩)
    · exact ⟨page, hin, .inl hpage⟩
    · exact ⟨page, hin, .inr ⟨n, hplanned, hpage⟩⟩
  · rintro ⟨page, hin, hpage | ⟨n, hplanned, hpage⟩⟩
    · exact .inl ⟨page, hin, hpage⟩
    · exact .inr ⟨n, hplanned, page, hin, hpage⟩

theorem overlaps_iff {c : ContextId} {self : Option WindowId} {base len : Nat} :
    s.overlaps c self base len = true ↔ ∃ w ∈ s.windowList c, some w ≠ self ∧
      ∃ page, (base ≤ page ∧ page < base + len) ∧ s.ClaimsPage w page := by
  simp only [State.overlaps, List.any_eq_true, Bool.and_eq_true, bne_iff_ne, meets_iff]

end

/-! ## The place of an id in a list (R8) -/

/-- The window's local base is not above `base`. -/
def State.baseUpTo (s : State) (base : LocalPage) (w : WindowId) : Bool :=
  decide ((s.window w).localBase.toNat ≤ base.toNat)

/-- A window list in ascending order of local base. -/
abbrev State.Ascending (s : State) (l : List WindowId) : Prop :=
  l.Pairwise fun v u => (s.window v).localBase.toNat ≤ (s.window u).localBase.toNat

section
variable {s : State} {w : WindowId} {base : LocalPage} {l : List WindowId}

theorem insertByBase_eq (s : State) (w : WindowId) (base : LocalPage) (l : List WindowId) :
    s.insertByBase w base l = l.takeWhile (s.baseUpTo base) ++ w :: l.dropWhile (s.baseUpTo base) := by
  induction l with
  | nil => rfl
  | cons v l ih =>
    unfold State.insertByBase
    by_cases hbelow : base.toNat < (s.window v).localBase.toNat
    · have hstop : s.baseUpTo base v = false := decide_eq_false (by omega)
      simp only [if_pos hbelow, List.takeWhile_cons, List.dropWhile_cons, hstop, Bool.false_eq_true, if_false,
        List.nil_append]
    · have hpass : s.baseUpTo base v = true := decide_eq_true (by omega)
      simp only [if_neg hbelow, List.takeWhile_cons, List.dropWhile_cons, hpass, if_true, ih, List.cons_append]

theorem base_le_of_mem_takeWhile {v : WindowId} (h : v ∈ l.takeWhile (s.baseUpTo base)) :
    (s.window v).localBase.toNat ≤ base.toNat :=
  of_decide_eq_true (List.mem_takeWhile_imp (p := s.baseUpTo base) h)

/-- Behind the first base above `base` an ascending list has none but bases above it. -/
theorem lt_base_of_mem_dropWhile (h : s.Ascending l) {v : WindowId} (hv : v ∈ l.dropWhile (s.baseUpTo base)) :
    base.toNat < (s.window v).localBase.toNat := by
  induction l with
  | nil => cases hv
  | cons u l ih =>
    obtain ⟨hhead, htail⟩ := List.pairwise_cons.mp h
    rw [List.dropWhile_cons] at hv
    split at hv
    · exact ih htail hv
    · next hstop =>
      have hu : base.toNat < (s.window u).localBase.toNat := Nat.lt_of_not_le fun hle => hstop (decide_eq_true hle)
      rcases List.mem_cons.mp hv with rfl | hv
      · exact hu
      · exact hu.trans_le (hhead v hv)

/-- The local bases once `w` has its own. -/
def State.placedBase (s : State) (w : WindowId) (base : LocalPage) (v : WindowId) : Nat :=
  if v = w then base.toNat else (s.window v).localBase.toNat

theorem placedBase_self (s : State) (w : WindowId) (base : LocalPage) : s.placedBase w base w = base.toNat :=
  if_pos rfl

theorem placedBase_of_mem (hnew : w ∉ l) {v : WindowId} (hv : v ∈ l) :
    s.placedBase w base v = (s.window v).localBase.toNat := if_neg (ne_of_mem_of_not_mem hv hnew)

theorem insertByBase_ascending (h : s.Ascending l) (hnew : w ∉ l) : (s.insertByBase w base l).Pairwise
    fun v u => s.placedBase w base v ≤ s.placedBase w base u := by
  have hplaced : l.Pairwise fun v u => s.placedBase w base v ≤ s.placedBase w base u :=
    h.imp_of_mem fun {v u} hv hu hle => by rwa [placedBase_of_mem hnew hv, placedBase_of_mem hnew hu]
  have hfront : ∀ v ∈ l.takeWhile (s.baseUpTo base), s.placedBase w base v ≤ base.toNat := fun v hv => by
    rw [placedBase_of_mem hnew ((List.takeWhile_sublist _).subset hv)]
    exact base_le_of_mem_takeWhile hv
  have hback : ∀ v ∈ l.dropWhile (s.baseUpTo base), base.toNat ≤ s.placedBase w base v := fun v hv => by
    rw [placedBase_of_mem hnew ((List.dropWhile_sublist _).subset hv)]
    exact (lt_base_of_mem_dropWhile h hv).le
  rw [insertByBase_eq, List.pairwise_append, List.pairwise_cons, placedBase_self]
  refine ⟨hplaced.sublist (List.takeWhile_sublist _), ⟨hback, hplaced.sublist (List.dropWhile_sublist _)⟩,
    fun v hv u hu => ?_⟩
  rcases List.mem_cons.mp hu with rfl | hu
  · rw [placedBase_self]
    exact hfront v hv
  · exact (hfront v hv).trans (hback u hu)

end

/-! ## The command (R148, R11, R12) -/

section
variable {s : State} {r : CmdRecord} {rest : List CmdRecord} {c : ContextId} {v : NewValues}

theorem addChecked_of_free (h : (s.context c).state = .free) : s.addChecked r c v = s.refuse r .noContext := if_pos h

theorem addChecked_of_closing (h : (s.context c).state = .closing) :
    s.addChecked r c v = s.refuse r .contextClosing := by
  rw [State.addChecked, if_neg (ne_free_of_closing h), if_pos h]

section
variable (hopened : (s.context c).state = .opened)
include hopened

theorem addChecked_of_overlap (h : s.overlaps c none (localBaseOperand r).toNat v.length.toNat = true) :
    s.addChecked r c v = s.refuse r .overlap := by
  rw [State.addChecked, if_neg (ne_free_of_opened hopened), if_neg (ne_closing_of_opened hopened), if_pos h]

variable (hclear : s.overlaps c none (localBaseOperand r).toNat v.length.toNat = false)
include hclear

theorem addChecked_of_full (h : ∀ w, (s.window w).state ≠ .free) : s.addChecked r c v = s.refuse r .tableFull := by
  rw [State.addChecked, if_neg (ne_free_of_opened hopened), if_neg (ne_closing_of_opened hopened), hclear,
    if_neg Bool.false_ne_true, freeWindow_of_none h]

/-- The state that an ADD_WINDOW of the id `w` leaves, its record apart (R12). -/
def State.added (s : State) (w : WindowId) (c : ContextId) (base : LocalPage) (v : NewValues) : State :=
  (((s.setWindowList c (s.insertByBase w base (s.windowList c))).setContext c { s.context c with
    windowCount := (s.context c).windowCount + 1 }).setWindow w
    ⟨.live, c, base, v.length, (s.window w).version + 1, 0, none, false⟩).setWord w ⟨v.grant, []⟩

omit hopened hclear in
theorem added_version (s : State) (w : WindowId) (c : ContextId) (base : LocalPage) (v : NewValues) :
    ((s.added w c base v).window w).version = (s.window w).version + 1 := by
  rw [State.added, State.setWord_window, State.setWindow_window, if_pos rfl]

omit hopened hclear in
/-- The command's take and its effect on the records do not meet. -/
theorem added_taken (s : State) (n : Nat) (w : WindowId) (c : ContextId) (base : LocalPage) (v : NewValues) :
    State.added { s with cmdQueue := rest, reservations := n } w c base v =
      { s.added w c base v with cmdQueue := rest, reservations := n } := by
  have hlist : ∀ l, State.insertByBase { s with cmdQueue := rest, reservations := n } w base l =
      s.insertByBase w base l := fun l => by
    rw [insertByBase_eq, insertByBase_eq]
    rfl
  rw [State.added, hlist]
  rfl

omit hopened hclear in
theorem applyAdd_of_unheld {w : WindowId} (h : (s.window w).holders = 0) (base : LocalPage) :
    s.applyAdd w c base v = s.added w c base v := by
  rw [State.applyAdd, h, dropHolders_zero]
  rfl

theorem addChecked_of_lowest (htake : CanTake s r rest) {w : WindowId} (hfree : (s.window w).state = .free)
    (hlowest : ∀ u, u < w → (s.window u).state ≠ .free) (hunheld : (s.window w).holders = 0) :
    s.addChecked r c v = (s.added w c (localBaseOperand r) v).answered rest r .ok
      (.added w ((s.window w).version + 1)) := by
  have hadd : s.takeCommand.applyAdd w c (localBaseOperand r) v =
      { s.added w c (localBaseOperand r) v with cmdQueue := rest, reservations := s.reservations + 1 } := by
    rw [takeCommand_of_canTake htake]
    exact (applyAdd_of_unheld (s := { s with cmdQueue := rest, reservations := s.reservations + 1 }) hunheld
      (localBaseOperand r)).trans (added_taken s _ w c _ v)
  rw [State.addChecked, if_neg (ne_free_of_opened hopened), if_neg (ne_closing_of_opened hopened), hclear,
    if_neg Bool.false_ne_true, freeWindow_of_lowest hfree hlowest]
  dsimp only
  rw [hadd, ← added_version s w c (localBaseOperand r) v]
  exact post_of_taken (s.added w c (localBaseOperand r) v) rest r .ok _

end
end

/-- Settles O38: the overlap check page by page, the insertion as a split of the list, and the command by its
checks. -/
theorem addWindowMakesALiveRecord : Obligations.AddWindowMakesALiveRecord := by
  refine ⟨fun s c self base len => overlaps_iff, fun s w base l =>
    ⟨_, _, (List.takeWhile_append_dropWhile (p := s.baseUpTo base)).symm, insertByBase_eq s w base l,
      fun v hv => base_le_of_mem_takeWhile hv,
      fun hascending => ⟨fun v hv => lt_base_of_mem_dropWhile hascending hv, insertByBase_ascending hascending⟩⟩,
    ?_⟩
  intro s r rest c v h hkind hc hv
  refine ⟨fun hform => ?_, fun hform hfree => ?_, fun hform hclosing => ?_, fun ⟨hform, hopened⟩ hoverlap => ?_,
    fun ⟨hform, hopened⟩ hclear hfull => ?_, fun w ⟨hform, hopened⟩ hclear hfree hlowest hunheld => ?_⟩
  · exact exec_of_refuse (kind := .addWindow) h hkind (addWindow_of_no_bounds hc hv hform)
  · exact exec_of_refuse (kind := .addWindow) h hkind
      ((addWindow_of_bounds hc hv hform).trans (addChecked_of_free hfree))
  · exact exec_of_refuse (kind := .addWindow) h hkind
      ((addWindow_of_bounds hc hv hform).trans (addChecked_of_closing hclosing))
  · exact exec_of_refuse (kind := .addWindow) h hkind
      ((addWindow_of_bounds hc hv hform).trans (addChecked_of_overlap hopened hoverlap))
  · exact exec_of_refuse (kind := .addWindow) h hkind
      ((addWindow_of_bounds hc hv hform).trans (addChecked_of_full hopened hclear hfull))
  · exact exec_of_carriedOut (kind := .addWindow) h hkind
      ((addWindow_of_bounds hc hv hform).trans (addChecked_of_lowest hopened hclear h hfree hlowest hunheld))

end Sys2Proof.Machine
end

section
/-! SUPPORT. The change commands judged without a slot: their refusals, and the changes applied at once (O37, O39,
O40). -/

namespace Sys2Proof.Machine

/-! ## A change applied at once (R143) -/

section
variable {s : State} {r : CmdRecord} {rest : List CmdRecord}

/-- The effect on the state of the take, and the result read from the records before and after it. -/
theorem carryOut_immediate (htake : CanTake s r rest) (kept : Option AgentId) (late : Bool) {z : ChangeSubject}
    {v : NewValues} {t : State}
    (heffect : State.changeEffect { s with cmdQueue := rest, reservations := s.reservations + 1 } z v =
      { t with cmdQueue := rest, reservations := t.reservations + 1 }) :
    s.carryOut kept late r (.immediate z v) = t.answered rest r .ok (changeResult s t z 0 0) := by
  have hresult : changeResult { s with cmdQueue := rest, reservations := s.reservations + 1 }
      { t with cmdQueue := rest, reservations := t.reservations + 1 } z 0 0 = changeResult s t z 0 0 := by
    cases z with
    | _ => rfl
  rw [State.carryOut, takeCommand_of_canTake htake, State.applyNow]
  rw [heffect, hresult]
  exact post_of_taken t rest r .ok (changeResult s t z 0 0)

/-! ## MODIFY_WINDOW and RETIRE_WINDOW (R149, R150) -/

variable {w : WindowId}

theorem windowRefusal_of_free (h : (s.window w).state = .free) : windowRefusal s w = some .noWindow := if_pos h

theorem windowRefusal_of_closing (hused : (s.window w).state ≠ .free)
    (h : (s.context (s.window w).context).state = .closing) : windowRefusal s w = some .contextClosing := by
  rw [windowRefusal, if_neg hused, if_pos h]

theorem windowRefusal_of_changing (h : (s.window w).state = .changing)
    (hcontext : (s.context (s.window w).context).state ≠ .closing) : windowRefusal s w = some .windowBusy := by
  have hused : (s.window w).state ≠ .free := by
    rw [h]
    decide
  rw [windowRefusal, if_neg hused, if_neg hcontext, if_pos h]

section
variable {v : NewValues} (hw : operand2 4096 r = some w) (hv : valueOperands r = some v)
  (hbounds : InBounds (s.window w).localBase v)
include hw hv hbounds

theorem judgeModify_of_refusal {status : Status} (h : windowRefusal s w = some status) :
    judgeModify s r = .refused status := by
  simp only [judgeModify, hw, hv, if_pos hbounds, h]

variable (hsound : windowRefusal s w = none)
include hsound

theorem judgeModify_of_other_version (h : versionOperand r ≠ (s.window w).version) :
    judgeModify s r = .refused .versionMismatch := by
  simp only [judgeModify, hw, hv, if_pos hbounds, hsound, if_pos h]

variable (hversion : versionOperand r = (s.window w).version)
include hversion

theorem judgeModify_of_poisoned (h : (s.window w).poisoned = true) : judgeModify s r = .refused .poisoned := by
  simp only [judgeModify, hw, hv, if_pos hbounds, hsound, if_neg (not_not_intro hversion), if_pos h]

variable (hclean : (s.window w).poisoned = false)
include hclean

theorem judgeModify_of_overlap (hlength : v.length ≠ (s.window w).length)
    (h : s.overlaps (s.window w).context (some w) (s.window w).localBase.toNat v.length.toNat = true) :
    judgeModify s r = .refused .overlap := by
  simp only [judgeModify, hw, hv, if_pos hbounds, hsound, if_neg (not_not_intro hversion), hclean,
    if_neg Bool.false_ne_true, if_pos (And.intro hlength h)]

theorem judgeModify_of_unheld (hholders : (s.window w).holders = 0)
    (h : v.length = (s.window w).length ∨
      s.overlaps (s.window w).context (some w) (s.window w).localBase.toNat v.length.toNat = false) :
    judgeModify s r = .immediate (.modify w) v := by
  have hrange : ¬ (v.length ≠ (s.window w).length ∧
      s.overlaps (s.window w).context (some w) (s.window w).localBase.toNat v.length.toNat = true) :=
    fun ⟨hlength, hmeets⟩ => Bool.false_ne_true ((h.resolve_left hlength).symm.trans hmeets)
  simp only [judgeModify, hw, hv, if_pos hbounds, hsound, if_neg (not_not_intro hversion), hclean,
    if_neg Bool.false_ne_true, if_neg hrange, if_pos hholders]

end

theorem judgeRetire_of_refusal {status : Status} (hw : operand2 4096 r = some w)
    (h : windowRefusal s w = some status) : judgeRetire s r = .refused status := by
  simp only [judgeRetire, hw, h]

theorem judgeRetire_of_unheld (hw : operand2 4096 r = some w) (hsound : windowRefusal s w = none)
    (hholders : (s.window w).holders = 0) : judgeRetire s r = .immediate (.retire w) noValues := by
  simp only [judgeRetire, hw, hsound, if_pos hholders]

section
variable {status : Status} (h : CanTake s r rest)
include h

theorem exec_modifyWindow_of_refusal (hkind : recordKind r = some .modifyWindow)
    (hjudged : judgeModify s r = .refused status) :
    exec .modifyWindow s = .next (s.answered rest r status .refused) :=
  exec_of_refuse (kind := .modifyWindow) h hkind (congrArg (s.carryOut none false r) hjudged)

theorem exec_retireWindow_of_refusal (hkind : recordKind r = some .retireWindow)
    (hjudged : judgeRetire s r = .refused status) :
    exec .retireWindow s = .next (s.answered rest r status .refused) :=
  exec_of_refuse (kind := .retireWindow) h hkind (congrArg (s.carryOut none false r) hjudged)

theorem exec_modifyWindow_of_immediate (hkind : recordKind r = some .modifyWindow) {v : NewValues}
    (hjudged : judgeModify s r = .immediate (.modify w) v) (hclean : (s.window w).poisoned = false) :
    exec .modifyWindow s = .next ((s.applyModify w v).answered rest r .ok
      (.modified w 0 0 ((s.window w).version + 1) false)) := by
  have happlied := carryOut_immediate (t := s.applyModify w v) (z := .modify w) (v := v) h none false rfl
  rw [changeResult, applyModify_window, if_pos rfl, hclean] at happlied
  exact exec_of_carriedOut (kind := .modifyWindow) h hkind
    ((congrArg (s.carryOut none false r) hjudged).trans happlied)

theorem exec_retireWindow_of_immediate (hkind : recordKind r = some .retireWindow)
    (hjudged : judgeRetire s r = .immediate (.retire w) noValues) :
    exec .retireWindow s = .next ((s.applyRetire w).answered rest r .ok
      (.retired w 0 0 (s.window w).version)) := by
  have happlied := carryOut_immediate (t := s.applyRetire w) (z := .retire w) (v := noValues) h none false rfl
  rw [changeResult, applyRetire_window, if_pos rfl] at happlied
  exact exec_of_carriedOut (kind := .retireWindow) h hkind
    ((congrArg (s.carryOut none false r) hjudged).trans happlied)

end
end

/-- Settles O39: the branches of the validation, in its order. -/
theorem modifyWindowAtOnce : Obligations.ModifyWindowAtOnce := by
  intro s r rest w v h hkind hw hv
  refine ⟨fun hform => ?_, fun hform hfree => ?_, fun hform hused hclosing => ?_,
    fun hform hchanging hcontext => ?_, fun ⟨hform, hlive, hcontext⟩ hversion => ?_,
    fun ⟨⟨hform, hlive, hcontext⟩, hversion⟩ hpoisoned => ?_,
    fun ⟨⟨hform, hlive, hcontext⟩, hversion⟩ hclean hlength hoverlap => ?_,
    fun ⟨⟨hform, hlive, hcontext⟩, hversion⟩ hclean hholders hrange => ?_⟩
  · exact exec_modifyWindow_of_refusal h hkind (judgeModify_of_no_bounds hw hv hform)
  · exact exec_modifyWindow_of_refusal h hkind (judgeModify_of_refusal hw hv hform (windowRefusal_of_free hfree))
  · exact exec_modifyWindow_of_refusal h hkind
      (judgeModify_of_refusal hw hv hform (windowRefusal_of_closing hused hclosing))
  · exact exec_modifyWindow_of_refusal h hkind
      (judgeModify_of_refusal hw hv hform (windowRefusal_of_changing hchanging hcontext))
  all_goals have hsound := windowRefusal_of_live hlive hcontext
  · exact exec_modifyWindow_of_refusal h hkind (judgeModify_of_other_version hw hv hform hsound hversion)
  · exact exec_modifyWindow_of_refusal h hkind (judgeModify_of_poisoned hw hv hform hsound hversion hpoisoned)
  · exact exec_modifyWindow_of_refusal h hkind
      (judgeModify_of_overlap hw hv hform hsound hversion hclean hlength hoverlap)
  · exact exec_modifyWindow_of_immediate h hkind
      (judgeModify_of_unheld hw hv hform hsound hversion hclean hholders hrange) hclean

/-- Settles O40: the checks that RETIRE_WINDOW shares with MODIFY_WINDOW, and the record freed. -/
theorem retireWindowAtOnce : Obligations.RetireWindowAtOnce := by
  intro s r rest w h hkind hw
  refine ⟨fun hfree => ?_, fun hused hclosing => ?_, fun hchanging hcontext => ?_,
    fun hlive hcontext hholders => ?_⟩
  · exact exec_retireWindow_of_refusal h hkind (judgeRetire_of_refusal hw (windowRefusal_of_free hfree))
  · exact exec_retireWindow_of_refusal h hkind
      (judgeRetire_of_refusal hw (windowRefusal_of_closing hused hclosing))
  · exact exec_retireWindow_of_refusal h hkind
      (judgeRetire_of_refusal hw (windowRefusal_of_changing hchanging hcontext))
  · exact exec_retireWindow_of_immediate h hkind
      (judgeRetire_of_unheld hw (windowRefusal_of_live hlive hcontext) hholders)

/-! ## CLOSE_CONTEXT and LEAVE (R145, R147) -/

section
variable {s : State} {r : CmdRecord} {rest : List CmdRecord} {c : ContextId} {a : AgentId}

section
variable (hc : operand2 256 r = some c)
include hc

theorem judgeClose_of_free (h : (s.context c).state = .free) : judgeClose s r = .refused .noContext := by
  simp only [judgeClose, hc, if_pos h]

theorem judgeClose_of_closing (h : (s.context c).state = .closing) :
    judgeClose s r = .refused .contextClosing := by
  simp only [judgeClose, hc, if_neg (ne_free_of_closing h), if_pos h]

/-- A window of the context is CHANGING, or an agent is leaving it. -/
def State.Busy (s : State) (c : ContextId) : Prop :=
  (∃ w ∈ s.windowList c, (s.window w).state = .changing) ∨ (s.context c).leaving ≠ 0

omit hc in
theorem busy_iff : (((s.windowList c).any fun w => (s.window w).state = .changing) = true ∨
    (s.context c).leaving ≠ 0) ↔ s.Busy c := by
  simp only [List.any_eq_true, decide_eq_true_eq, State.Busy]

variable (hopened : (s.context c).state = .opened)
include hopened

theorem judgeClose_of_busy (h : s.Busy c) : judgeClose s r = .refused .contextBusy := by
  simp only [judgeClose, hc, if_neg (ne_free_of_opened hopened), if_neg (ne_closing_of_opened hopened),
    if_pos (busy_iff.mpr h)]

theorem judgeClose_of_unheld (hquiet : ¬ s.Busy c) (h : s.HoldsNothing (.close c)) :
    judgeClose s r = .immediate (.close c) noValues := by
  have hnone : s.noHolders c = true := List.all_eq_true.mpr fun w hw => beq_iff_eq.mpr (h w hw)
  simp only [judgeClose, hc, if_neg (ne_free_of_opened hopened), if_neg (ne_closing_of_opened hopened),
    if_neg (mt busy_iff.mp hquiet), if_pos hnone]

end

/-- `t` is `s` after a CLOSE of context `c` that found no holder. -/
structure ClosedAtOnce (c : ContextId) (s t : State) : Prop where
  only : t = { s with
    windows := t.windows, grants := t.grants, windowLists := t.windowLists, contexts := t.contexts }
  context : ∀ d, t.context d = if d = c then ⟨.free, 0, 0, 0, none⟩ else s.context d
  windowList : ∀ d, t.windowList d = if d = c then [] else s.windowList d
  listed : ∀ w ∈ s.windowList c, t.word w = ⟨GrantPart.zero, []⟩ ∧
    t.window w = ⟨.free, 0, 0, 0, (s.window w).version, 0, none, false⟩
  unlisted : ∀ w, w ∉ s.windowList c → t.window w = s.window w ∧ t.word w = s.word w

theorem applyClose_only (s : State) (c : ContextId) : s.applyClose c = { s with
    windows := (s.applyClose c).windows, grants := (s.applyClose c).grants,
    windowLists := (s.applyClose c).windowLists, contexts := (s.applyClose c).contexts,
    agents := (s.applyClose c).agents } := by
  have honly := foldl_clearWindow_only (s.windowList c) s
  rw [applyClose_eq]
  generalize (s.windowList c).foldl State.clearWindow s = u at honly
  rw [honly]
  rfl

theorem applyClose_closedAtOnce (h : s.HoldsNothing (.close c)) : ClosedAtOnce c s (s.applyClose c) := by
  have hdone := applyClose_completion s 0 c
  refine ⟨?_, hdone.context, hdone.windowList, fun w hw => ⟨?_, ?_⟩, fun w hw => ⟨?_, ?_⟩⟩
  · have honly := applyClose_only s c
    rwa [applyClose_agents h] at honly
  · exact (hdone.word w).trans (if_pos hw)
  · exact (hdone.window w).trans (if_pos hw)
  · exact (hdone.window w).trans (if_neg hw)
  · exact (hdone.word w).trans (if_neg hw)

/-- A CLOSE applied in its take: what it leaves is `s` closed, with the command taken. -/
theorem changeEffect_close_taken (h : s.HoldsNothing (.close c)) : ∃ t : State, ClosedAtOnce c s t ∧
    State.changeEffect { s with cmdQueue := rest, reservations := s.reservations + 1 } (.close c) noValues =
      { t with cmdQueue := rest, reservations := t.reservations + 1 } := by
  have hclosed := applyClose_closedAtOnce
    (s := { s with cmdQueue := rest, reservations := s.reservations + 1 }) h
  obtain ⟨honly, hcontext, hlist, hlisted, hunlisted⟩ := hclosed
  exact ⟨{ State.applyClose { s with cmdQueue := rest, reservations := s.reservations + 1 } c with
      cmdQueue := s.cmdQueue, reservations := s.reservations },
    ⟨by rw [honly], hcontext, hlist, hlisted, hunlisted⟩, by rw [State.changeEffect, honly]⟩

theorem exec_closeContext_of_refusal {status : Status} (h : CanTake s r rest)
    (hkind : recordKind r = some .closeContext) (hjudged : judgeClose s r = .refused status) :
    exec .closeContext s = .next (s.answered rest r status .refused) :=
  exec_of_refuse (kind := .closeContext) h hkind (congrArg (s.carryOut none false r) hjudged)

theorem exec_closeContext_of_immediate (h : CanTake s r rest) (hkind : recordKind r = some .closeContext)
    (hjudged : judgeClose s r = .immediate (.close c) noValues) : ∃ t : State,
    exec .closeContext s = .next (t.answered rest r .ok (.close c 0 0)) ∧ ClosedAtOnce c s t := by
  obtain ⟨t, hclosed, heffect⟩ := changeEffect_close_taken (rest := rest) (judgeClose_immediate hjudged)
  exact ⟨t, exec_of_carriedOut (kind := .closeContext) h hkind
    ((congrArg (s.carryOut none false r) hjudged).trans (carryOut_immediate h none false heffect)), hclosed⟩

section
variable (hc : operand2 256 r = some c) (ha : operand3 32 r = some a)
include hc ha

theorem judgeLeave_of_free (h : (s.context c).state = .free) : judgeLeave s r = .refused .noContext := by
  simp only [judgeLeave, memberOperands_of_some hc ha, if_pos h]

theorem judgeLeave_of_closing (h : (s.context c).state = .closing) :
    judgeLeave s r = .refused .contextClosing := by
  simp only [judgeLeave, memberOperands_of_some hc ha, if_neg (ne_free_of_closing h), if_pos h]

variable (hopened : (s.context c).state = .opened)
include hopened

theorem judgeLeave_of_stranger (h : hasAgent (s.context c).members a = false) :
    judgeLeave s r = .refused .notMember := by
  simp only [judgeLeave, memberOperands_of_some hc ha, if_neg (ne_free_of_opened hopened),
    if_neg (ne_closing_of_opened hopened), if_pos h]

variable (hmember : hasAgent (s.context c).members a = true)
include hmember

theorem judgeLeave_of_leaving (h : hasAgent (s.context c).leaving a = true) :
    judgeLeave s r = .refused .agentBusy := by
  simp only [judgeLeave, memberOperands_of_some hc ha, if_neg (ne_free_of_opened hopened),
    if_neg (ne_closing_of_opened hopened), hmember, Bool.true_eq_false, if_false, if_pos h]

theorem judgeLeave_of_unheld (hstays : hasAgent (s.context c).leaving a = false)
    (h : s.HoldsNothing (.leave c a)) : judgeLeave s r = .immediate (.leave c a) noValues := by
  have hnone : s.holdsIn c a = false := List.any_eq_false.mpr fun w hw => Bool.eq_false_iff.mp (h w hw)
  simp only [judgeLeave, memberOperands_of_some hc ha, if_neg (ne_free_of_opened hopened),
    if_neg (ne_closing_of_opened hopened), hmember, Bool.true_eq_false, if_false, hstays, Bool.false_eq_true,
    hnone]

end

/-- Agent `a` neither holds window `w` nor is asked for it by a change in flight. -/
abbrev State.Apart (s : State) (a : AgentId) (w : WindowId) : Prop :=
  hasAgent (s.window w).holders a = false ∧
    ((s.window w).slot = none ∨ ∃ k, (s.window w).slot = some k ∧ hasAgent (s.slot k).pending a = false)

theorem leaveWindow_of_apart {w : WindowId} (h : s.Apart a w) : s.leaveWindow a w = s := by
  obtain ⟨hholds, hslot⟩ := h
  rw [State.leaveWindow, dropHolder_of_no_holder hholds]
  rcases hslot with hnone | ⟨k, hk, hpending⟩
  · rw [hnone]
  · rw [hk]
    dsimp only
    rw [hpending, if_neg Bool.false_ne_true]

theorem leaveHoldings_of_apart (h : ∀ w ∈ s.windowList c, s.Apart a w) : s.leaveHoldings c a = s :=
  foldl_fixed _ s _ fun w hw => leaveWindow_of_apart (h w hw)

/-- The state that a LEAVE of a member apart from every window of the context leaves (R28). -/
def State.parted (s : State) (c : ContextId) (a : AgentId) : State :=
  s.setContext c { s.context c with
    members := dropAgent (s.context c).members a, leaving := dropAgent (s.context c).leaving a }

theorem applyLeave_of_apart (h : ∀ w ∈ s.windowList c, s.Apart a w) : s.applyLeave c a = s.parted c a := by
  rw [applyLeave_eq, leaveHoldings_of_apart h]
  rfl

theorem exec_leave_of_refusal {status : Status} (h : CanTake s r rest) (hkind : recordKind r = some .leave)
    (hjudged : judgeLeave s r = .refused status) :
    exec .leave s = .next (s.answered rest r status .refused) :=
  exec_of_refuse (kind := .leave) h hkind (congrArg (s.carryOut none false r) hjudged)

theorem exec_leave_of_immediate (h : CanTake s r rest) (hkind : recordKind r = some .leave)
    (hjudged : judgeLeave s r = .immediate (.leave c a) noValues) (hapart : ∀ w ∈ s.windowList c, s.Apart a w) :
    exec .leave s = .next ((s.parted c a).answered rest r .ok (.leave c a 0 0)) := by
  have heffect := applyLeave_of_apart (s := { s with cmdQueue := rest, reservations := s.reservations + 1 }) hapart
  exact exec_of_carriedOut (kind := .leave) h hkind ((congrArg (s.carryOut none false r) hjudged).trans
    (carryOut_immediate (t := s.parted c a) h none false heffect))

end

/-- Settles O37: the branches of the two validations, in their order, and the records that a CLOSE or a LEAVE
without holders leaves. -/
theorem closeAndLeaveAtOnce : Obligations.CloseAndLeaveAtOnce := by
  intro s r rest h
  refine ⟨fun c hkind hc => ⟨fun hfree => ?_, fun hclosing => ?_, fun hopened hbusy => ?_,
      fun hopened hquiet hleaving => ?_⟩,
    fun c a hkind hc ha => ⟨fun hfree => ?_, fun hclosing => ?_, fun hopened hstranger => ?_,
      fun hopened hmember hleaving => ?_, fun hopened hmember hstays hapart => ?_⟩⟩
  · exact exec_closeContext_of_refusal h hkind (judgeClose_of_free hc hfree)
  · exact exec_closeContext_of_refusal h hkind (judgeClose_of_closing hc hclosing)
  · exact exec_closeContext_of_refusal h hkind (judgeClose_of_busy hc hopened hbusy)
  · have hidle : ¬ s.Busy c := by
      rintro (⟨w, hw, hchanging⟩ | hsome)
      · exact (hquiet w hw).1 hchanging
      · exact hsome hleaving
    obtain ⟨t, hexec, honly, hcontext, hlist, hlisted, hunlisted⟩ := exec_closeContext_of_immediate h hkind
      (judgeClose_of_unheld hc hopened hidle fun w hw => (hquiet w hw).2)
    exact ⟨t, hexec, honly, hcontext, hlist, hlisted, hunlisted⟩
  · exact exec_leave_of_refusal h hkind (judgeLeave_of_free hc ha hfree)
  · exact exec_leave_of_refusal h hkind (judgeLeave_of_closing hc ha hclosing)
  · exact exec_leave_of_refusal h hkind (judgeLeave_of_stranger hc ha hopened hstranger)
  · exact exec_leave_of_refusal h hkind (judgeLeave_of_leaving hc ha hopened hmember hleaving)
  · exact exec_leave_of_immediate h hkind
      (judgeLeave_of_unheld hc ha hopened hmember hstays fun w hw => (hapart w hw).1) hapart

end Sys2Proof.Machine
end

section
/-! SUPPORT. FENCE_AGENT by the agent's state (O42): the FENCE sent, the claims that end no purge, and the one in
which the agent's own purge ends at once with every wait on it. -/

namespace Sys2Proof.Machine

/-! ## The agent on its way to FENCED (R38, R101) -/

theorem ne_fenced_of_active {s : State} {a : AgentId} (h : (s.agent a).state = .active) :
    (s.agent a).state ≠ .fenced := by
  rw [h]
  decide

theorem ne_fenced_of_purging {s : State} {a : AgentId} (h : (s.agent a).state = .purging) :
    (s.agent a).state ≠ .fenced := by
  rw [h]
  decide

/-- `t` is `s` with agent `a` PURGING toward FENCED, and its FENCE placed, owed, or left to the next UP. -/
structure FenceSent (a : AgentId) (s t : State) : Prop where
  only : t = { s with agents := t.agents, ports := t.ports }
  own : t.agent a = { s.agent a with
    state := .purging, target := some .fenced, welcomeOwed := false, fenceOwed := (t.agent a).fenceOwed }
  owed : (t.agent a).fenceOwed = true ↔ (s.agent a).fenceOwed = true ∨
    ∃ p, (s.agent a).port = some p ∧ (s.port p).state = .up ∧ 32 ≤ (s.port p).outbound.length
  others : ∀ b, b ≠ a → t.agent b = s.agent b
  port : ∀ p, t.port p = if (s.agent a).port = some p ∧ s.HasRoom p then
    { s.port p with outbound := (s.port p).outbound ++ [.fence a] } else s.port p

section
variable {s : State} {a : AgentId}

/-- A message offered to the port of an agent is placed where there is room. -/
theorem offered_eq_if (s : State) (own : Option PortId) (p : PortId) (m : OutMsg) :
    (if own = some p then (s.port p).offered m else s.port p) =
      if own = some p ∧ s.HasRoom p then { s.port p with outbound := (s.port p).outbound ++ [m] } else s.port p := by
  by_cases hown : own = some p
  · by_cases hroom : s.HasRoom p
    · rw [if_pos hown, if_pos ⟨hown, hroom⟩, offered_of_room hroom]
    · rw [if_pos hown, if_neg fun h => hroom h.2, offered_of_no_room hroom]
  · rw [if_neg hown, if_neg fun h => hown h.1]

theorem fenceSent_sent (s : State) (a : AgentId) : FenceSent a s (s.fenceSent a) := by
  have honly := sendFence_only
    (s.setAgent a { s.agent a with state := .purging, target := some .fenced, welcomeOwed := false }) a
  have hagent := sendFence_agent
    (s.setAgent a { s.agent a with state := .purging, target := some .fenced, welcomeOwed := false }) a
  have howed := sendFence_owed
    (s.setAgent a { s.agent a with state := .purging, target := some .fenced, welcomeOwed := false }) a
  have hport := sendFence_port
    (s.setAgent a { s.agent a with state := .purging, target := some .fenced, welcomeOwed := false }) a
  simp only [State.setAgent_agent, if_true, State.setAgent_port] at hagent howed hport
  refine ⟨honly, (hagent a).trans (if_pos rfl), howed,
    fun b hb => (hagent b).trans ((if_neg hb).trans (if_neg hb)), fun p => (hport p).trans (offered_eq_if s _ p _)⟩

theorem fenceSent_engine (s : State) (a : AgentId) : (s.fenceSent a).engine = s.engine :=
  sendFence_engine (s.setAgent a { s.agent a with
    state := .purging, target := some .fenced, welcomeOwed := false }) a

/-- The replacement of another target by FENCED (R38). -/
theorem fence_of_other_target (h : (s.agent a).state = .purging) (ht : (s.agent a).target ≠ some .fenced) :
    s.fence a = s.fenceSent a := by
  simp only [State.fence, State.fenceSent, h, if_neg ht]

theorem fence_of_fenced_target (h : (s.agent a).state = .purging) (ht : (s.agent a).target = some .fenced) :
    s.fence a = s := by simp only [State.fence, h, if_pos ht]

theorem fence_of_absent (h : (s.agent a).state = .absent) :
    s.fence a = s.setAgent a { s.agent a with state := .fenced } := by simp only [State.fence, h]

theorem fence_of_fenced (h : (s.agent a).state = .fenced) : s.fence a = s := by simp only [State.fence, h]

/-- A purge start toward FENCED that finds the agent in no change and with no request parked. -/
theorem purgeStart_fenced_of_unencumbered (h : Unencumbered s a) :
    s.purgeStart a .fenced = { s.fenceSent a with purgeSet := addAgent s.purgeSet a } := by
  obtain ⟨hslots, hentries⟩ := h
  have honly := (fenceSent_sent s a).only
  rw [purgeStart_fenced]
  generalize s.fenceSent a = x at honly
  have hdrop : (x.dropEntries fun e => e.request.agent == a) = x := foldl_fixed _ x allEntries fun e _ =>
    if_neg fun ⟨hused, hpick⟩ => by
      rw [honly] at hused hpick
      exact hentries e hused (beq_iff_eq.mp hpick)
  have hquit : x.quitSlots a = x := foldl_fixed _ x allSlots fun k _ =>
    if_neg fun ⟨hactive, hpending⟩ => by
      rw [honly] at hactive hpending
      exact Bool.false_ne_true ((hslots k hactive).symm.trans hpending)
  rw [hdrop, hquit, honly]

/-! ## The command taken (R151) -/

/-- The take of a FENCE_AGENT that waits for its agent: the reservation is kept, and the wait joins the list. -/
def State.fenceAwaited (s : State) (rest : List CmdRecord) (tag : Half) (a : AgentId) : State :=
  { s with cmdQueue := rest, reservations := s.reservations + 1, fenceWait := s.fenceWait ++ [⟨tag, a⟩] }

theorem fenceAwaited_settled (hs : Settled s) (ha : (s.agent a).state ≠ .fenced) (rest : List CmdRecord)
    (tag : Half) : Settled (s.fenceAwaited rest tag a) := by
  obtain ⟨hemptied, hpurging, hfence, hwait⟩ := hs
  refine ⟨hemptied, hpurging, fun f hf => ?_, hwait⟩
  rcases List.mem_append.mp hf with hold | hnew
  · exact hfence f hold
  · rw [List.mem_singleton.mp hnew]
    exact ha

variable {r : CmdRecord} {rest : List CmdRecord}

theorem recordCode_of_kind {kind : CommandKind} (h : recordKind r = some kind) :
    recordCode r = commandCode kind :=
  (beq_iff_eq.mp (List.find?_some (p := fun k => commandCode k == recordCode r) h)).symm

section
variable (htake : CanTake s r rest) (ha : operand2 32 r = some a)
include htake ha

/-- An agent that is not to be waited for. -/
theorem fenceAgent_at_once (hkind : recordKind r = some .fenceAgent)
    (h : (s.agent a).state = .absent ∨ (s.agent a).state = .fenced) {t : State}
    (hfence : State.fence { s with cmdQueue := rest, reservations := s.reservations + 1 } a =
      { t with cmdQueue := rest, reservations := t.reservations + 1 }) :
    s.fenceAgent r = t.answered rest r .done (.fenced a (t.agent a).port) := by
  simp only [State.fenceAgent, ha, if_pos h, takeCommand_of_canTake htake, hfence, State.fenceRecord]
  rw [← recordCode_of_kind hkind]
  exact post_of_taken t rest r .done (.fenced a (t.agent a).port)

theorem fenceAgent_awaited (h : (s.agent a).state = .active ∨ (s.agent a).state = .purging) :
    s.fenceAgent r = ((s.fenceAwaited rest (recordTag r) a).fence a).finish none := by
  have hwaits : ¬ ((s.agent a).state = .absent ∨ (s.agent a).state = .fenced) := by
    rcases h with h | h
    · rw [h]
      decide
    · rw [h]
      decide
  simp only [State.fenceAgent, ha, if_neg hwaits, takeCommand_of_canTake htake]
  rfl

end

/-! ## A claim in which the agent holds something, so that no purge ends -/

theorem finish_fenceSent_held (hs : Settled s) (hheld : (s.agent a).held ≠ 0) (x : AgentSet) :
    State.finish { s.fenceSent a with purgeSet := x } none = { s.fenceSent a with purgeSet := x } := by
  have hsent := fenceSent_sent s a
  have hengine := fenceSent_engine s a
  generalize s.fenceSent a = t at hsent hengine
  have hslots : t.slots = s.slots := by rw [hsent.only]
  have hstate : (t.agent a).state = .purging := by rw [hsent.own]
  have hstill : (t.agent a).held = (s.agent a).held := by rw [hsent.own]
  have hsettled : Settled t := settled_of_agent (a := a) hs hslots hengine hsent.others
    (by rw [hstate]; exact nofun) fun _ => by rwa [hstill]
  exact finish_of_settled (s := { t with purgeSet := x }) hsettled none

/-! ## A claim in which the agent's purge ends at once (R36, R152) -/

/-- Agents whose purges are over: only `a`'s. -/
theorem foldl_purgeEnded_of_one {u : State} (hover : u.PurgeIsOver a) (hothers : ∀ b, b ≠ a → ¬ u.PurgeIsOver b) :
    u.nothingHeld.foldl State.purgeEnded u = u.purgeEnded a := by
  rw [← endPurges_none, endPurges_of_one none hothers, endPurge_of_over hover]

theorem purgeEnded_of_fenced {u : State} (h : (u.agent a).target = some .fenced) : u.purgeEnded a =
    { u.setAgent a { u.agent a with state := .fenced, target := none } with
      purgeSet := dropAgent u.purgeSet a } := by
  rw [State.purgeEnded, h]
  rfl

theorem dropAgent_addAgent (x : AgentSet) (a : AgentId) : dropAgent (addAgent x a) a = dropAgent x a :=
  agentSet_ext fun b => by
    rw [hasAgent_dropAgent, hasAgent_dropAgent, hasAgent_addAgent]
    by_cases hb : b = a
    · simp [hb]
    · simp [hb]

theorem purgeEnded_of_marked {x : State} (h : (x.agent a).target = some .fenced) (y : AgentSet) :
    State.purgeEnded { x with purgeSet := addAgent y a } a =
      { x.setAgent a { x.agent a with state := .fenced, target := none } with purgeSet := dropAgent y a } := by
  rw [← dropAgent_addAgent y a]
  exact purgeEnded_of_fenced (u := { x with purgeSet := addAgent y a }) h

/-- The waits on `a`, the last of the list among them, are posted once `a` is FENCED, and the others stay. -/
theorem fencesEnded_of_one {v : State} {l : List FenceWait} {last : FenceWait} (hlist : v.fenceWait = l ++ [last])
    (hlast : last.agent = a) (hfenced : (v.agent a).state = .fenced)
    (hothers : ∀ f ∈ l, f.agent ≠ a → (v.agent f.agent).state ≠ .fenced) :
    v.fencesEnded [] = { v with
      fenceWait := l.filter fun f => f.agent ≠ a
      completions := v.completions ++ ((l ++ [last]).filter fun f => f.agent = a).map fun f =>
        ⟨0x20, .done, f.tag, .fenced a (v.agent a).port⟩
      reservations := v.reservations - ((l ++ [last]).filter fun f => f.agent = a).length } := by
  have hstate : ∀ f ∈ l ++ [last], (v.agent f.agent).state = .fenced ↔ f.agent = a := fun f hf => by
    refine ⟨fun h => ?_, fun h => by rwa [h]⟩
    by_contra hne
    rcases List.mem_append.mp hf with hold | hnew
    · exact hothers f hold hne h
    · exact hne (by rwa [List.mem_singleton.mp hnew])
  have hdone : ((l ++ [last]).filter fun f => decide ((v.agent f.agent).state = .fenced)) =
      (l ++ [last]).filter fun f => decide (f.agent = a) :=
    List.filter_congr fun f hf => decide_eq_decide.mpr (hstate f hf)
  have hkept : ((l ++ [last]).filter fun f => decide ((v.agent f.agent).state ≠ .fenced)) =
      l.filter fun f => decide (f.agent ≠ a) := by
    have hother : ∀ f ∈ l ++ [last], decide ((v.agent f.agent).state ≠ .fenced) = decide (f.agent ≠ a) :=
      fun f hf => decide_eq_decide.mpr (not_congr (hstate f hf))
    rw [List.filter_congr hother, List.filter_append]
    simp [hlast]
  have hrecords : (((l ++ [last]).filter fun f => decide (f.agent = a)).map fun f =>
        (⟨0x20, .done, f.tag, .fenced f.agent (v.agent f.agent).port⟩ : Completion)) =
      ((l ++ [last]).filter fun f => decide (f.agent = a)).map fun f =>
        ⟨0x20, .done, f.tag, .fenced a (v.agent a).port⟩ :=
    List.map_congr_left fun f hf => by rw [of_decide_eq_true (List.mem_filter.mp hf).2]
  rw [State.fencesEnded, hlist, hdone, hkept, hrecords, List.append_nil, List.length_nil, Nat.zero_add]

/-- A purge toward FENCED that starts with nothing held ends in its claim, and ends the waits on its agent. -/
theorem finish_fenceSent_ends (hs : Settled s) (hheld : (s.agent a).held = 0) (x : AgentSet) :
    State.finish { s.fenceSent a with purgeSet := x } none =
      (State.purgeEnded { s.fenceSent a with purgeSet := x } a).fencesEnded [] := by
  have hsent := fenceSent_sent s a
  have hengine := fenceSent_engine s a
  generalize s.fenceSent a = t at hsent hengine
  obtain ⟨hemptied, hpurging, -, hwait⟩ := hs
  have hslots : ∀ k, t.slot k = s.slot k := fun k => by
    rw [hsent.only]
    rfl
  have hkept : ∀ k, ¬ t.Emptied k := fun k => by
    rw [State.Emptied, hslots]
    exact hemptied k
  have hfree : t.slotWait = true → t.freeSlot = none := by
    rw [slotWait_of_engine hengine, freeSlot_congr (s := s) fun k => by rw [hslots]]
    exact hwait
  have hover : t.PurgeIsOver a := by
    rw [State.PurgeIsOver, hsent.own]
    exact ⟨rfl, hheld⟩
  have hothers : ∀ b, b ≠ a → ¬ t.PurgeIsOver b := fun b hb => by
    rw [State.PurgeIsOver, hsent.others b hb]
    exact fun ⟨hp, h0⟩ => hpurging b hp h0
  rw [finish_of_none_emptied (u := { t with purgeSet := x }) hkept hfree, State.purgesEnded,
    foldl_purgeEnded_of_one (u := { t with purgeSet := x }) hover hothers]

/-- `t` is `s` after a FENCE_AGENT whose agent is FENCED in its claim: the waits on the agent, the command's own
last, are posted. -/
structure FencedAtOnce (rest : List CmdRecord) (last : FenceWait) (a : AgentId) (s t : State) : Prop where
  only : t = { s with
    cmdQueue := rest, agents := t.agents, ports := t.ports,
    purgeSet := dropAgent s.purgeSet a
    fenceWait := s.fenceWait.filter fun f => f.agent ≠ a
    reservations := s.reservations + 1 - ((s.fenceWait ++ [last]).filter fun f => f.agent = a).length
    completions := s.completions ++ ((s.fenceWait ++ [last]).filter fun f => f.agent = a).map fun f =>
      ⟨0x20, .done, f.tag, .fenced a (s.agent a).port⟩ }
  own : t.agent a = { s.agent a with
    state := .fenced, target := none, welcomeOwed := false, fenceOwed := (t.agent a).fenceOwed }
  owed : (t.agent a).fenceOwed = true ↔ (s.agent a).fenceOwed = true ∨
    ∃ p, (s.agent a).port = some p ∧ (s.port p).state = .up ∧ 32 ≤ (s.port p).outbound.length
  others : ∀ b, b ≠ a → t.agent b = s.agent b
  port : ∀ p, t.port p = if (s.agent a).port = some p ∧ s.HasRoom p then
    { s.port p with outbound := (s.port p).outbound ++ [.fence a] } else s.port p

theorem fencedAtOnce_of_sent {x : State} {tag : Half} (hsent : FenceSent a (s.fenceAwaited rest tag a) x)
    (hwaits : ∀ f ∈ s.fenceWait, (s.agent f.agent).state ≠ .fenced) :
    FencedAtOnce rest ⟨tag, a⟩ a s
      ((State.purgeEnded { x with purgeSet := addAgent s.purgeSet a } a).fencesEnded []) := by
  obtain ⟨honly, hown, howed, hothers, hport⟩ := hsent
  have htarget : (x.agent a).target = some .fenced := by rw [hown]
  have hbound : (x.agent a).port = (s.agent a).port := by
    rw [hown]
    rfl
  have hlist : x.fenceWait = s.fenceWait ++ [⟨tag, a⟩] := by
    rw [honly]
    rfl
  have hset : ∀ b, (x.setAgent a { x.agent a with state := .fenced, target := none }).agent b =
      if b = a then { x.agent a with state := .fenced, target := none } else x.agent b :=
    fun b => State.setAgent_agent x a b _
  rw [purgeEnded_of_marked htarget]
  have hagents : x.setAgent a { x.agent a with state := .fenced, target := none } =
      { x with agents := (x.setAgent a { x.agent a with state := .fenced, target := none }).agents } := rfl
  generalize x.setAgent a { x.agent a with state := .fenced, target := none } = y at hset hagents
  have hfenced : y.agent a = { x.agent a with state := .fenced, target := none } := (hset a).trans (if_pos rfl)
  have hrest : ∀ b, b ≠ a → y.agent b = s.agent b := fun b hb =>
    (hset b).trans ((if_neg hb).trans (hothers b hb))
  have hwait : y.fenceWait = s.fenceWait ++ [⟨tag, a⟩] := by rw [hagents, hlist]
  have hown_port : (y.agent a).port = (s.agent a).port := by rw [hfenced, hbound]
  rw [fencesEnded_of_one (v := { y with purgeSet := dropAgent s.purgeSet a }) (a := a) hwait rfl
    (by show (y.agent a).state = _; rw [hfenced])
    fun f hf hne => by show (y.agent f.agent).state ≠ _; rw [hrest _ hne]; exact hwaits f hf]
  refine ⟨?_, ?_, ?_, hrest, fun p => ?_⟩
  · rw [← hown_port, hagents, honly]
    rfl
  · show y.agent a = { s.agent a with
      state := .fenced, target := none, welcomeOwed := false, fenceOwed := (y.agent a).fenceOwed }
    rw [hfenced, hown]
    rfl
  · show (y.agent a).fenceOwed = true ↔ _
    rw [hfenced]
    exact howed
  · show y.port p = _
    rw [hagents]
    exact hport p

/-- The claim of a FENCE_AGENT whose agent holds nothing and has nothing under way. -/
theorem finish_fence_ends (hs : Settled s) (hactive : (s.agent a).state = .active) (hfree : Unencumbered s a)
    (hheld : (s.agent a).held = 0) (rest : List CmdRecord) (tag : Half) :
    FencedAtOnce rest ⟨tag, a⟩ a s (((s.fenceAwaited rest tag a).fence a).finish none) := by
  have hnot := ne_fenced_of_active hactive
  have ⟨_, _, hwaits, _⟩ := hs
  rw [fence_of_active (s := s.fenceAwaited rest tag a) hactive,
    purgeStart_fenced_of_unencumbered (s := s.fenceAwaited rest tag a) hfree,
    finish_fenceSent_ends (fenceAwaited_settled hs hnot rest tag) hheld]
  exact fencedAtOnce_of_sent (fenceSent_sent _ a) hwaits

/-- The claim of a FENCE_AGENT whose agent holds something, its target being another or none yet. -/
theorem finish_fence_held (hs : Settled s)
    (h : (s.agent a).state = .purging ∧ (s.agent a).target ≠ some .fenced ∨
      (s.agent a).state = .active ∧ Unencumbered s a ∧ (s.agent a).held ≠ 0)
    (rest : List CmdRecord) (tag : Half) :
    ((s.fenceAwaited rest tag a).fence a).finish none = { (s.fenceAwaited rest tag a).fenceSent a with
      purgeSet := if (s.agent a).state = .active then addAgent s.purgeSet a else s.purgeSet } := by
  rcases h with ⟨hpurging, htarget⟩ | ⟨hactive, hfree, hheld⟩
  · have ⟨_, hholding, _, _⟩ := hs
    have hnot := ne_fenced_of_purging hpurging
    have hother : (s.agent a).state ≠ .active := by
      rw [hpurging]
      decide
    have hsame : (s.fenceAwaited rest tag a).fenceSent a =
        { (s.fenceAwaited rest tag a).fenceSent a with purgeSet := s.purgeSet } := by
      have hset : ((s.fenceAwaited rest tag a).fenceSent a).purgeSet = s.purgeSet := by
        rw [(fenceSent_sent _ a).only]
        rfl
      rw [← hset]
    rw [if_neg hother, fence_of_other_target (s := s.fenceAwaited rest tag a) hpurging htarget, hsame]
    exact finish_fenceSent_held (fenceAwaited_settled hs hnot rest tag) (hholding a hpurging) s.purgeSet
  · have hnot := ne_fenced_of_active hactive
    rw [if_pos hactive, fence_of_active (s := s.fenceAwaited rest tag a) hactive,
      purgeStart_fenced_of_unencumbered (s := s.fenceAwaited rest tag a) hfree]
    exact finish_fenceSent_held (fenceAwaited_settled hs hnot rest tag) hheld (addAgent s.purgeSet a)

end

/-- Settles O42: by the agent's state; no purge ends in the claim but that of an ACTIVE agent that holds
nothing. -/
theorem fenceAgentByState : Obligations.FenceAgentByState := by
  intro s r rest a h hkind ha
  refine ⟨fun habsent => ?_, fun hfenced => ?_, fun hs hpurging htarget => ?_, fun hactive => ?_,
    fun hs hcase => ?_, fun hs hactive hfree hheld => ?_⟩
  · have hport : ((s.setAgent a { s.agent a with state := .fenced }).agent a).port = (s.agent a).port := by
      rw [State.setAgent_agent, if_pos rfl]
    have hdone := fenceAgent_at_once h ha hkind (.inl habsent)
      (t := s.setAgent a { s.agent a with state := .fenced })
      (fence_of_absent (s := { s with cmdQueue := rest, reservations := s.reservations + 1 }) habsent)
    rw [hport] at hdone
    exact exec_of_carriedOut (kind := .fenceAgent) h hkind hdone
  · exact exec_of_carriedOut (kind := .fenceAgent) h hkind (fenceAgent_at_once (t := s) h ha hkind (.inr hfenced)
      (fence_of_fenced (s := { s with cmdQueue := rest, reservations := s.reservations + 1 }) hfenced))
  · have hnot := ne_fenced_of_purging hpurging
    have hclaim := fenceAgent_awaited h ha (.inr hpurging)
    rw [fence_of_fenced_target (s := s.fenceAwaited rest (recordTag r) a) hpurging htarget,
      finish_of_settled (fenceAwaited_settled hs hnot rest (recordTag r))] at hclaim
    exact exec_of_carriedOut (kind := .fenceAgent) h hkind hclaim
  · have hstart := fence_of_active (s := s.fenceAwaited rest (recordTag r) a) hactive
    exact exec_of_carriedOut (kind := .fenceAgent) h hkind
      ((fenceAgent_awaited h ha (.inl hactive)).trans (congrArg (State.finish · none) hstart))
  · have hwaits : (s.agent a).state = .active ∨ (s.agent a).state = .purging :=
      hcase.elim (fun h => .inr h.1) fun h => .inl h.1
    have hclaim := (fenceAgent_awaited h ha hwaits).trans (finish_fence_held hs hcase rest (recordTag r))
    obtain ⟨honly, hown, howed, hothers, hport⟩ := fenceSent_sent (s.fenceAwaited rest (recordTag r) a) a
    refine ⟨_, exec_of_carriedOut (kind := .fenceAgent) h hkind hclaim, ?_, hown, howed, hothers, hport⟩
    rw [honly]
    rfl
  · obtain ⟨honly, hown, howed, hothers, hport⟩ := finish_fence_ends hs hactive hfree hheld rest (recordTag r)
    exact ⟨_, exec_of_carriedOut (kind := .fenceAgent) h hkind (fenceAgent_awaited h ha (.inl hactive)), honly,
      hown, howed, hothers, hport⟩

end Sys2Proof.Machine
end

section
/-! SUPPORT. A head that waits for a change slot holds the queue, and is taken in the claim in which a slot is FREE
(O27). -/

namespace Sys2Proof.Machine

/-! ## No slot, and no take (R76, R140, R141) -/

section
variable {s : State}

theorem freeSlot_of_none (h : ∀ k, (s.slot k).state = .active) : s.freeSlot = none :=
  List.find?_eq_none.mpr fun k _ => by
    rw [h k]
    decide

theorem carryOut_of_no_slot (h : s.freeSlot = none) (kept : Option AgentId) (late : Bool) (r : CmdRecord)
    (z : ChangeSubject) (v : NewValues) : s.carryOut kept late r (.needsSlot z v) = { s with slotWait := true } := by
  simp only [State.carryOut, h]

theorem headFor_of_held (h : s.slotWait = true ∨ 16 ≤ s.completions.length + s.reservations)
    (kind : Option CommandKind) : s.headFor kind = none := by
  have hnot : ∀ r, ¬ (s.slotWait = false ∧ s.HasReservation ∧ recordKind r = kind) := by
    rintro r ⟨hwait, hplace, -⟩
    rcases h with h | h
    · exact Bool.false_ne_true (hwait.symm.trans h)
    · exact Nat.not_le.mpr hplace h
  unfold State.headFor
  split
  · exact if_neg (hnot _)
  · rfl

theorem takeHead_of_held (h : s.slotWait = true ∨ 16 ≤ s.completions.length + s.reservations)
    (kind : Option CommandKind) (f : CmdRecord → State → State) : s.takeHead kind f = s := by
  have hhead := headFor_of_held h kind
  refine whenServing_keeps (P := fun t => t = s) (fun _ => ?_) rfl
  rw [hhead]

/-! ## The records of a claim that settles (log 15) -/

/-- `t` with the completion records perhaps in another order. -/
def SameButOrder (s t : State) : Prop :=
  s = { t with completions := s.completions } ∧ s.completions.Perm t.completions

theorem SameButOrder.refl (s : State) : SameButOrder s s := ⟨rfl, .refl _⟩

theorem postAll_sameButOrder (s : State) {x y : List Completion} (h : x.Perm y) :
    SameButOrder (s.postAll x) (s.postAll y) := by
  have hcompletions : (s.completions ++ x).Perm (s.completions ++ y) := h.append_left _
  rw [postAll_eq, postAll_eq, h.length_eq]
  exact ⟨rfl, hcompletions⟩

/-- The change's record comes after those of the fence waits, or before them. -/
theorem settle_late (s : State) (kept : Option AgentId) :
    SameButOrder (s.settle kept true) (s.settle kept false) :=
  postAll_sameButOrder _ List.perm_append_comm

theorem fenceWait_of_engine {s t : State} (h : t.engine = s.engine) : t.fenceWait = s.fenceWait :=
  congrArg Engine.fenceWait h

theorem fencesDone_of_no_waits (h : s.fenceWait = []) : s.fencesDone = [] := by
  rw [State.fencesDone, h]
  rfl

theorem settle_late_of_no_waits (h : s.fenceWait = []) (kept : Option AgentId) :
    s.settle kept true = s.settle kept false := by
  have hengine : (s.completeEmptied.1.endPurges kept).engine = s.engine := by
    rw [endPurges_engine, completeEmptied_engine]
  have hnone := fencesDone_of_no_waits ((fenceWait_of_engine hengine).trans h)
  simp only [State.settle, hnone, List.map_nil, List.nil_append, List.append_nil, if_true, if_false,
    Bool.false_eq_true]

/-! ## The queue that a take leaves -/

/-- The command queue, and whether its head waits for a slot. -/
def State.queue (s : State) : List CmdRecord × Bool := (s.cmdQueue, s.slotWait)

theorem queue_of_engine {s t : State} (h : t.engine = s.engine) : t.queue = s.queue :=
  congrArg (fun e : Engine => (e.cmdQueue, e.slotWait)) h

theorem settle_queue (s : State) (kept : Option AgentId) (late : Bool) : (s.settle kept late).queue = s.queue := by
  have hengine : (s.completeEmptied.1.endPurges kept).engine = s.engine := by
    rw [endPurges_engine, completeEmptied_engine]
  rw [← queue_of_engine hengine]
  unfold State.settle
  dsimp only
  generalize s.completeEmptied.1.endPurges kept = u
  rw [postAll_eq]
  rfl

/-- Whatever the judgement, the head is taken while a slot is FREE. -/
theorem carryOut_queue {k : SlotId} (h : s.freeSlot = some k) (kept : Option AgentId) (late : Bool) (r : CmdRecord)
    (j : Judgement) : (s.carryOut kept late r j).queue = (s.cmdQueue.tail, false) := by
  cases j with
  | refused status => rfl
  | immediate z v => exact queue_of_engine (changeEffect_engine s.takeCommand z v)
  | needsSlot z v =>
    simp only [State.carryOut, h]
    rw [settle_queue]
    exact queue_of_engine (fillSlot_engine s.takeCommand kept k z v (recordTag r))

/-! ## The second examination (R141) -/

theorem reconsider_of_no_slot (h : s.freeSlot = none) (kept : Option AgentId) : s.reconsider kept = s := by
  simp [State.reconsider, h]

theorem reconsider_of_waiting {k : SlotId} {r : CmdRecord} {rest : List CmdRecord} (hwait : s.slotWait = true)
    (hfree : s.freeSlot = some k) (hqueue : s.cmdQueue = r :: rest) :
    s.reconsider none = s.carryOut none true r (judgeChange s r) := by
  simp [State.reconsider, hwait, hfree, hqueue]

/-- The take clears the slot wait flag, so a command is carried out alike whether the flag was set or not. -/
theorem carryOut_of_waiting {k : SlotId} (h : s.freeSlot = some k) (kept : Option AgentId) (late : Bool)
    (r : CmdRecord) (j : Judgement) :
    State.carryOut { s with slotWait := false } kept late r j = s.carryOut kept late r j := by
  cases j with
  | refused status => rfl
  | immediate z v => rfl
  | needsSlot z v =>
    have hclear : State.freeSlot { s with slotWait := false } = some k := h
    simp only [State.carryOut, h, hclear]
    rfl

theorem carryOut_late {k : SlotId} (h : s.freeSlot = some k) (kept : Option AgentId) (r : CmdRecord)
    (j : Judgement) : SameButOrder (s.carryOut kept true r j) (s.carryOut kept false r j) := by
  cases j with
  | refused status => exact .refl _
  | immediate z v => exact .refl _
  | needsSlot z v =>
    simp only [State.carryOut, h]
    exact settle_late _ kept

theorem carryOut_late_of_no_waits {k : SlotId} (h : s.freeSlot = some k) (hwaits : s.fenceWait = [])
    (kept : Option AgentId) (r : CmdRecord) (j : Judgement) :
    s.carryOut kept true r j = s.carryOut kept false r j := by
  cases j with
  | refused status => rfl
  | immediate z v => rfl
  | needsSlot z v =>
    have hengine := fillSlot_engine s.takeCommand kept k z v (recordTag r)
    simp only [State.carryOut, h]
    exact settle_late_of_no_waits ((fenceWait_of_engine hengine).trans hwaits) kept

/-- A change command is carried out by the judgement of its kind. -/
theorem carriedOut_of_change {r : CmdRecord} {kind : CommandKind} (hkind : recordKind r = some kind)
    (hchange : kind ∈ [CommandKind.modifyWindow, .retireWindow, .closeContext, .leave]) :
    s.carriedOut kind r = s.carryOut none false r (judgeChange s r) := by
  simp only [List.mem_cons, List.not_mem_nil, or_false] at hchange
  rcases hchange with rfl | rfl | rfl | rfl
  all_goals simp only [State.carriedOut, judgeChange, hkind]

theorem judgeChange_with_slotWait (s : State) (b : Bool) (r : CmdRecord) :
    judgeChange { s with slotWait := b } r = judgeChange s r := rfl

end

/-- Settles O27: with every slot ACTIVE the flag is set, while it is set no head is taken, and the second
examination carries the head out by the judgement of its own command. -/
theorem slotWaitHoldsTheQueue : Obligations.SlotWaitHoldsTheQueue := by
  refine ⟨fun s r rest v h hbusy => ?_, fun s hheld c hc => ?_,
    fun s r rest kind hserving hwait hfree hplace hqueue hkind hchange => ?_, fun s h => ?_⟩
  · have hnone := freeSlot_of_none hbusy
    have hleft : ∀ (kind : CommandKind) (z : ChangeSubject) (v' : NewValues), recordKind r = some kind →
        s.carriedOut kind r = s.carryOut none false r (.needsSlot z v') →
        exec (takeOf kind) s = .next { s with slotWait := true } := fun kind z v' hkind hjudged =>
      exec_of_carriedOut h hkind (hjudged.trans (carryOut_of_no_slot hnone none false r z v'))
    exact ⟨fun w hw => hleft .modifyWindow _ _ hw.1
        (congrArg (s.carryOut none false r) (judgeModify_of_needsSlot hw)),
      fun w hw => hleft .retireWindow _ _ hw.1
        (congrArg (s.carryOut none false r) (judgeRetire_of_needsSlot hw)),
      fun c hc => hleft .closeContext _ _ hc.1
        (congrArg (s.carryOut none false r) (judgeClose_of_needsSlot hc)),
      fun c a hl => hleft .leave _ _ hl.1
        (congrArg (s.carryOut none false r) (judgeLeave_of_needsSlot hl))⟩
  · rcases List.mem_cons.mp hc with rfl | hc
    · exact congrArg Host.Outcome.next (takeHead_of_held hheld none _)
    · obtain ⟨kind, -, rfl⟩ := List.mem_map.mp (show c ∈ commandKinds.map takeOf from hc)
      rw [exec_takeOf]
      exact congrArg Host.Outcome.next (takeHead_of_held hheld (some kind) _)
  · obtain ⟨k, hk⟩ : ∃ k, s.freeSlot = some k := by
      obtain ⟨k, hk⟩ := hfree
      exact Option.isSome_iff_exists.mp
        (List.find?_isSome.mpr ⟨k, List.mem_finRange k, decide_eq_true hk⟩)
    have htaken : CanTake { s with slotWait := false } r rest := ⟨hserving, rfl, hplace, hqueue⟩
    have hout : State.carriedOut { s with slotWait := false } kind r =
        s.carryOut none false r (judgeChange s r) := by
      rw [carriedOut_of_change hkind hchange, judgeChange_with_slotWait, carryOut_of_waiting hk]
    have hleft := carryOut_queue hk none false r (judgeChange s r)
    rw [hqueue] at hleft
    obtain ⟨hsame, hperm⟩ := carryOut_late hk none r (judgeChange s r)
    rw [reconsider_of_waiting hwait hk hqueue]
    exact ⟨_, exec_of_carriedOut htaken hkind hout, congrArg Prod.snd hleft, congrArg Prod.fst hleft, hsame, hperm,
      fun hwaits => carryOut_late_of_no_waits hk hwaits none r _⟩
  · rcases h with hclear | hbusy
    · exact reconsider_of_none_waiting hclear none
    · exact reconsider_of_no_slot (freeSlot_of_none hbusy) none

end Sys2Proof.Machine
end
